-- ==== Sys2Proof/Word.lean ====
section
/-!
DEFINITION. Word.lean: the byte, the 64-bit word, the identities of Table 2-2 and a 64 B line.
-/

namespace Sys2Proof

/-- A byte of memory or of a message. -/
abbrev Byte := BitVec 8

/-- A 64-bit word: a register, a scalar, a GFA (R21), a fabric time (R316). -/
abbrev Word := BitVec 64

/-- An agent ID (R23: 18 bits, fabric scope). -/
abbrev AgentId := BitVec 18

/-- A switch ID (R23: 16 bits). -/
abbrev SwitchId := BitVec 16

/-- A room ID (R23: 8 bits). -/
abbrev RoomId := BitVec 8

/-- A map epoch (R23: 16 bits). -/
abbrev Epoch := BitVec 16

/-- A transaction tag (R23, R97: engine number in [19:9], slot in [8:0]). -/
abbrev Tag := BitVec 20

/-- A tag generation (R103). -/
abbrev Gen := BitVec 4

/-- What answers from outside this switch bring: the bytes they return by address, and the status of each
answer that is not 0x00, by line (GFA divided by 64). A byte not listed was not answered. -/
structure Cells where
  bytes : List (Nat × Byte)
  status : List (Nat × Byte)
  deriving DecidableEq, Repr

end Sys2Proof
end

