-- ==== Sys2Proof/Syntax.lean ====
section
/-!
DEFINITION. Syntax.lean: the commands the switch takes, one constructor of `Instr` for each row of the
table of operations and events (spec/opcode_table.json), with the operands that come from outside.

Some operands name the responses that the switch's own requests meet: `x` of CARAVAN_RUN and of the descriptors named after it,
`status`, `poison` and `data` of TRANSFER_COMPLETE, `value` and `old` of the commands of the witness. They say what a record of a run
shows beside the command. The responses themselves arrive as packets and are held in the state (R97), so no effect depends on these.
-/

namespace Sys2Proof

/-! ### Operand types -/

/-- A memory or coherence request as it reaches the home (header words 0 to 3, Tables 3-5 and 4-1). -/
structure Req where
  /-- src of the request: the requesting agent. -/
  agent : AgentId
  tag : Tag
  gen : Gen
  room : RoomId
  epoch : Epoch
  /-- ordering class (R58, R87). -/
  ocls : BitVec 2
  /-- work class: 0 guaranteed, 1 elastic, 2 best-effort. -/
  wcls : BitVec 2
  gfa : Word
  /-- byte count minus 1 (Table 4-1). -/
  nb : BitVec 7
  /-- congestion experienced on the way (R71). -/
  ce : Bool
  /-- the port of entry, when this switch is also the attachment switch (R98); none otherwise. -/
  port : Option Nat
  deriving DecidableEq, Repr

/-- A BFP packet: the header of Table 3-5, words 2 and 3, and the payload bytes. -/
structure Packet where
  opcode : BitVec 8
  vc : BitVec 3
  ocls : BitVec 2
  ce : Bool
  poison : Bool
  mcast : Bool
  room : RoomId
  src : AgentId
  dst : AgentId
  hint : BitVec 4
  tag : Tag
  epoch : Epoch
  /-- payload length in slots of 16 B. -/
  len : Nat
  hops : Nat
  wcls : BitVec 2
  cee : Bool
  w2 : Word
  w3 : Word
  data : List Byte
  deriving DecidableEq, Repr

/-- The header of a received flit (Table 3-3) and the verdict of FEC and of the CRC or tag (R49, R50). -/
structure FlitHdr where
  seq : BitVec 12
  ack : BitVec 12
  cvcA : BitVec 3
  ccntA : BitVec 11
  cvcB : BitVec 3
  ccntB : BitVec 11
  abort : Bool
  intact : Bool
  deriving DecidableEq, Repr

/-- What the slots of a data flit hold, in slot order (R52): the rest of the packet in progress, or a packet
that starts here, with how many of its slots lie in this flit. -/
inductive Piece where
  /-- `n` further slots of the packet in progress. -/
  | more (n : Nat)
  /-- a packet starts; `n` of its slots lie in this flit. -/
  | start (p : Packet) (n : Nat)
  deriving DecidableEq, Repr

/-- What a link control flit says (R56, R73). -/
inductive LinkCtl where
  /-- the initial credits of the eight virtual channels, channel 0 first. -/
  | credits (c : List Nat)
  /-- the peer takes the link down. -/
  | linkDown
  deriving DecidableEq, Repr

/-- One entry of a flush notice (R74). -/
structure FlushEntry where
  tag : Tag
  epoch : Epoch
  opcode : BitVec 8
  ocls : BitVec 2
  home : SwitchId
  deriving DecidableEq, Repr

/-- Kinds of stored 64 B units (R181): a line, a chunk's MAC unit, a unit of a coded image. -/
inductive UnitKind where
  | line | mac | image
  deriving DecidableEq, Repr

/-- A stored unit: of a head tile, or of the tile retained at a cut; its tile, and its number among the units of its kind there. -/
structure StoredUnit where
  cut : Option (BitVec 32) := none
  tile : Nat
  kind : UnitKind
  i : Nat
  deriving DecidableEq, Repr

/-- What happened to the cells of a stored unit: the XOR of what they hold with what was written, 64 data bytes and then 8 check bytes,
byte 0 least significant. -/
structure Upset where
  unit : StoredUnit
  bits : BitVec 576
  deriving DecidableEq, Repr

/-- What struck an entry of a table since it was written (R298, R299): its place in the array, the XOR of its match row's key and mask
with what was written, and whether its copy has an uncorrectable error. -/
structure RowError where
  slot : Nat
  key : BitVec 256 := 0
  mask : BitVec 256 := 0
  ecc : Bool := false
  deriving DecidableEq, Repr

/-- One step of a scrubber: a slot of the whole array, and what struck the array's entries since the step before. -/
structure SlotScrub where
  slot : Nat
  errors : List RowError := []
  deriving DecidableEq, Repr

/-- What the innkeeper measures at a sample (R330, R338): the fixed power, the power of each rail, both in mW, and what each die's sensor shows, in
quarters of a degree. -/
structure PowerSample where
  mw : Nat
  rails : List Nat
  temps : List Nat
  deriving DecidableEq, Repr

/-- A map message (R163): header fields and tile entries of 8 B. -/
structure MapMsg where
  src : AgentId
  room : RoomId
  tag : Tag
  /-- GFA of the extent, bits [20:0] zero. -/
  extent : Word
  entries : List Word
  deriving DecidableEq, Repr

/-- A snoop answer (R111, R112): the agent, the echoed snoop tag and the line. -/
structure SnoopAnswer where
  agent : AgentId
  tag : Tag
  gfa : Word
  deriving DecidableEq, Repr

/-- What a tray declares for one tier (R154). -/
structure TierDecl where
  /-- capacity in bytes. -/
  capacity : Nat
  /-- tray_bound in ns. -/
  bound : Nat
  /-- sustained rates in GB/s. -/
  readRate : Nat
  writeRate : Nat
  deriving DecidableEq, Repr

/-- One room slice as a composition record gives it (Table 2-6), of one member switch. -/
structure Slice where
  switch : SwitchId
  share : Nat
  ring0 : Nat
  nrings : Nat
  clusters : BitVec 144
  hbm : BitVec 16
  trays : BitVec 64
  fabPorts : BitVec 128
  brgPorts : BitVec 16
  flexPorts : BitVec 16
  funcs : BitVec 64
  quota0 : Nat
  quota1 : Nat
  quota2 : Nat
  members : List AgentId
  deriving DecidableEq, Repr

/-- What a route leads to (R62): a home switch, or an agent attached within the room. -/
inductive RouteKey where
  | home (x : SwitchId)
  | agent (a : AgentId)
  deriving DecidableEq, Repr

/-- A path set of a room's epoch (R62): egress ports toward a home or an agent, and for an agent the switch
it attaches to (R63). -/
structure PathSet where
  key : RouteKey
  ports : List Nat
  attachSwitch : SwitchId
  deriving DecidableEq, Repr

/-- What ROOM_LIMIT and ROOM_TIER set for a room (R92, R157), with the values of a room that has never received them. -/
structure RoomRules where
  rate : Nat := 1
  burst : Nat := 4
  beRate : Nat := 0
  unified : Bool := false
  thr : Nat := 1
  interval : Nat := 100
  hi0 : Nat := 100
  lo0 : Nat := 10
  hi1 : Nat := 100
  lo1 : Nat := 10
  deriving DecidableEq, Repr

/-- The map of an epoch as a member switch receives it (step 2 of Table 2-7, R357), with the room's rules (R92, R157). -/
structure EpochMap where
  room : RoomId
  epoch : Epoch
  holder : SwitchId
  slices : List Slice
  paths : List PathSet
  /-- for each member switch, its twin (R357). -/
  twins : List (SwitchId × SwitchId)
  rules : RoomRules := {}
  deriving DecidableEq, Repr

/-- A BFP time-sync frame (Table 14-1), with the local stamp of its first bit. -/
structure TimeFrame where
  seq : BitVec 16
  tTx : Nat
  tReq : Nat
  grandmaster : BitVec 64
  prio : BitVec 8
  clockClass : BitVec 8
  steps : BitVec 8
  lock : BitVec 8
  /-- the neighbour's switch ID. -/
  neighbour : SwitchId
  /-- fabric time at which the first bit reached this switch's contacts. -/
  tRx : Nat
  deriving DecidableEq, Repr

/-- A bridge frame's shim (Table 17-7), the 802.1AE verdict and the packets it carries. -/
structure BridgeFrame where
  seq : BitVec 32
  ack : BitVec 32
  creditVc : BitVec 3
  creditSlots : BitVec 11
  /-- 802.1AE validation and the replay window passed (R409). -/
  valid : Bool
  /-- outer IP header carries CE (R72). -/
  outerCe : Bool
  packets : List Packet
  deriving DecidableEq, Repr

/-- The core a caravan instruction runs on: cluster 0 to 143, core 0 to 31 (R215). -/
structure CoreId where
  cluster : Nat
  core : Nat
  deriving DecidableEq, Repr

/-- A register number of a core (Table 10-8: 5-bit fields). -/
abbrev Reg := BitVec 5

/-- A predicate register number (Table 10-8: 3-bit field). -/
abbrev PReg := BitVec 3

/-- A type code (Table 10-10). -/
abbrev Ty := BitVec 4

/-- A room's run parameters as the lead sends them to each switch of a context (R264, Table 11-5). -/
structure CollParams where
  lead : SwitchId
  ctx : BitVec 10
  round : BitVec 32
  op : Nat
  resultType : BitVec 4
  rootMember : Nat
  count : Nat
  resultGfa : Word
  floor : Nat
  cls : Nat
  promise : Nat
  deriving DecidableEq, Repr

/-- A collective packet's named fields (R258) with its payload. -/
structure CollPkt where
  src : AgentId
  lead : SwitchId
  ctx : BitVec 10
  round : BitVec 32
  chunk : Nat
  member : Nat
  first : Nat
  poison : Bool
  data : List Byte
  deriving DecidableEq, Repr

/-- A certificate chain as received and as checked: its bytes, the SHA3-384 of its root, and whether every signature of it
verifies (R377). -/
structure ChainSeen where
  bytes : List Byte
  root : BitVec 384
  signaturesOk : Bool
  deriving DecidableEq, Repr

/-- An SPDM request of Table 16-9 with its transport: 0 MCTP on I3C, 1 MCTP on the management port, 2 BFP. -/
structure SpdmReq where
  transport : Nat
  nonce : BitVec 256
  slot : Nat
  deriving DecidableEq, Repr

/-- The ten PTP message types of IEEE 1588-2019 that R410's options concern. -/
inductive PtpKind where
  | sync | followUp | delayReq | delayResp | announce | peerDelay | management | signaling
  deriving DecidableEq, Repr

/-- What a PTP message says once it is parsed: the offset it completes (delay response), and the data of an announce. -/
structure PtpInfo where
  offset : Int
  grandmaster : BitVec 64
  clockClass : BitVec 8
  priority : BitVec 8
  steps : BitVec 8
  deriving DecidableEq, Repr

/-- The requests of the responder of R395 inside one ATT_REQ packet (R396). -/
inductive SpdmKind where
  | getVersion | getCapabilities | negotiateAlgorithms | getDigests | getCertificate | challenge
  | getMeasurements | other
  deriving DecidableEq, Repr

/-- The instructions of the test access port (Table 17-12). -/
inductive TapOp where
  | bypass | idcode | samplePreload | extest | extestPulse | extestTrain | clamp | highz
  deriving DecidableEq, Repr

/-- The CXL SnpType of a MemRd (Table 17-4). -/
inductive CxlRead where
  | plain | shared | exclusive
  deriving DecidableEq, Repr

/-- What the board and the environment give a cold start (Table 18-3): the level of BOOT_HOLD_N, the units that self-test and
HBM training find failed (unit code, index), and the VFs that the host has enabled when the set-up lock is taken from the
set-up record (NumVFs with VF Enable set, 0 for none). -/
structure ColdEnv where
  bootHoldLow : Bool
  failedUnits : List (Nat × Nat)
  numVfs : Nat
  deriving DecidableEq, Repr

/-- An extent as a map journal gives it: its tiles with key, tier, unit, form and ownership epoch. -/
structure JournalExt where
  /-- GFA divided by 2 MiB. -/
  key : Nat
  room : RoomId
  domain : Byte
  survival : Nat
  lineAddressed : Bool
  pin : Bool
  revert : Bool
  tiles : List (Nat × Nat × Nat × Bool × BitVec 16)
  /-- what the trays hold of it: bytes by GFA, and the poisoned lines (GFA divided by 64). -/
  cells : List (Nat × Byte)
  poisoned : List Nat
  deriving DecidableEq, Repr

/-- What the mirror target holds when it is read (R423, R351): the header's format, owner and state, the
ring records and the ledger entries as 64 B and 128 B images, the completion slots that a volatile LD of each ring reads,
the key record, and the map journal by what it says; with it, the value that a read of the witness returns. -/
structure MirrorImage where
  /-- whether a read of the mirror target succeeds. -/
  reached : Bool
  format : BitVec 16
  owner : SwitchId
  state : Nat
  /-- ring records, 64 B each (Table 15-4). -/
  rings : List (BitVec 512)
  /-- ledger entries, 128 B each (Table 15-2), with their entry number. -/
  entries : List (Nat × BitVec 1024)
  /-- completion records read: ring ID, slot, 32 B. -/
  records : List (Nat × Nat × BitVec 256)
  /-- the journal at a takeover: extents, sharing domains, and the rooms that this switch does not know (R349, R357). -/
  exts : List JournalExt
  domains : List (RoomId × Byte × List AgentId)
  rooms : List EpochMap
  /-- the migration commits and refusals of the lost map holder (R162, R165): tile, epoch, whether recorded, the entry. -/
  recs : List (Nat × BitVec 16 × Bool × Word)
  /-- commits, cuts and activations that the journal records as made: ring, sequence, the two result words. -/
  applied : List (BitVec 12 × BitVec 32 × Word × Word)
  /-- the key record: pair generation, the partner's ek_s and ciphertext (R373). -/
  key : Option (BitVec 32 × BitVec 12544 × BitVec 12544)
  /-- value of the witness, where one is named and answers (R422). -/
  witness : Option Word
  deriving DecidableEq, Repr

/-! ### The commands -/

/-- One constructor per row of the table of operations and events, the core
instructions first. Descriptor rows
name the ledger entry `e` they run; `x` holds the bytes that reads from outside this switch return. -/
inductive Instr where
  -- caravan core instructions (Table 10-9)
  | add (c : CoreId) (d a b : Reg)
  | sub (c : CoreId) (d a b : Reg)
  | and (c : CoreId) (d a b : Reg)
  | or (c : CoreId) (d a b : Reg)
  | xor (c : CoreId) (d a b : Reg)
  | shl (c : CoreId) (d a b : Reg)
  | shr (c : CoreId) (d a b : Reg)
  | sra (c : CoreId) (d a b : Reg)
  | mul (c : CoreId) (d a b : Reg)
  | slt (c : CoreId) (d a b : Reg)
  | addi (c : CoreId) (d a : Reg) (imm : BitVec 16)
  | andi (c : CoreId) (d a : Reg) (imm : BitVec 16)
  | ori (c : CoreId) (d a : Reg) (imm : BitVec 16)
  | shli (c : CoreId) (d a : Reg) (imm : BitVec 16)
  | shri (c : CoreId) (d a : Reg) (imm : BitVec 16)
  | lui (c : CoreId) (d : Reg) (imm : BitVec 16)
  | beq (c : CoreId) (a b : Reg) (off : BitVec 16)
  | bne (c : CoreId) (a b : Reg) (off : BitVec 16)
  | blt (c : CoreId) (a b : Reg) (off : BitVec 16)
  | bge (c : CoreId) (a b : Reg) (off : BitVec 16)
  | jal (c : CoreId) (d : Reg) (off : BitVec 21)
  | jr (c : CoreId) (a : Reg)
  | ldw (c : CoreId) (d a : Reg) (imm : BitVec 16)
  | ldd (c : CoreId) (d a : Reg) (imm : BitVec 16)
  | stw (c : CoreId) (d a : Reg) (imm : BitVec 16)
  | std (c : CoreId) (d a : Reg) (imm : BitVec 16)
  | vld (c : CoreId) (d a : Reg) (imm : BitVec 16)
  | vst (c : CoreId) (d a : Reg) (imm : BitVec 16)
  | vgth (c : CoreId) (t : Ty) (d a b : Reg) (p : PReg)
  | vadd (c : CoreId) (t : Ty) (d a b : Reg) (p : PReg)
  | vsub (c : CoreId) (t : Ty) (d a b : Reg) (p : PReg)
  | vmul (c : CoreId) (t : Ty) (d a b : Reg) (p : PReg)
  | vfma (c : CoreId) (t : Ty) (d a b : Reg) (p : PReg)
  | vmax (c : CoreId) (t : Ty) (d a b : Reg) (p : PReg)
  | vmin (c : CoreId) (t : Ty) (d a b : Reg) (p : PReg)
  | vdot (c : CoreId) (t : Ty) (d a b : Reg)
  | vcvt (c : CoreId) (t : Ty) (d a b : Reg)
  | vexp2 (c : CoreId) (t : Ty) (d a : Reg)
  | vrcp (c : CoreId) (t : Ty) (d a : Reg)
  | vrsum (c : CoreId) (t : Ty) (d a : Reg) (p : PReg)
  | vrmax (c : CoreId) (t : Ty) (d a : Reg) (p : PReg)
  | vcmp (c : CoreId) (t : Ty) (d a b : Reg)
  | vsel (c : CoreId) (t : Ty) (d a b : Reg) (p : PReg)
  | vand (c : CoreId) (d a b : Reg)
  | vor (c : CoreId) (d a b : Reg)
  | vxor (c : CoreId) (d a b : Reg)
  | vshuf (c : CoreId) (t : Ty) (d a b : Reg)
  | vbcast (c : CoreId) (t : Ty) (d a : Reg)
  | vext (c : CoreId) (t : Ty) (d a b : Reg)
  | mvx (c : CoreId) (f : BitVec 1) (a : Reg)
  | xadd (c : CoreId) (t : Ty) (d a b : Reg) (p : PReg)
  | xsave (c : CoreId) (d a : Reg)
  | xload (c : CoreId) (d a : Reg)
  | xrnd (c : CoreId) (t : Ty) (d b : Reg)
  | recv (c : CoreId) (d b : Reg)
  | recvWake (c : CoreId)
  | send (c : CoreId) (a b : Reg)
  | free (c : CoreId) (a : Reg)
  | mget (c : CoreId) (t : Ty) (d a b : Reg)
  | mput (c : CoreId) (t : Ty) (d a b : Reg)
  | transferComplete (c : CoreId) (id : Nat) (status : Byte) (poison : Bool) (data : List Byte)
  | msync (c : CoreId) (t : Ty) (d a b : Reg)
  | mwait (c : CoreId) (a : Reg)
  | fence (c : CoreId)
  | time (c : CoreId) (d : Reg)
  | csrr (c : CoreId) (d a b : Reg)
  | done (c : CoreId)
  -- memory requests and the directory
  | ld (r : Req) (v : Bool)
  | ldSnap (r : Req) (handle : BitVec 16)
  | rdS (r : Req)
  | rdU (r : Req)
  | st (r : Req) (data : List Byte)
  | amo (r : Req) (aop : BitVec 4) (operand : Word)
  | cas (r : Req) (compare swap : BitVec 128)
  | memoryResponse (p : Packet)
  | cowCopyDone (tile : Word)
  | upg (r : Req)
  | wb (r : Req) (data : List Byte)
  | evc (r : Req)
  | lease (agent : AgentId) (home : SwitchId)
  | srNone (a : SnoopAnswer)
  | srClean (a : SnoopAnswer)
  | srData (a : SnoopAnswer) (data : List Byte)
  | srWb (a : SnoopAnswer)
  | leaseExpiry (agent : AgentId)
  | snoopLossTimer (tag : Tag) (agent : AgentId)
  | routeLossTimer (agent : AgentId)
  | promotion (gfa : Word)
  | deadTargetTimer (agent : AgentId) (tag : Tag) (gen : Gen)
  | replayWindowEnd (agent : AgentId) (tag : Tag) (epoch : Epoch)
  | tokenRelease (agent : AgentId) (room : RoomId)
  -- sync objects
  | syncLd (r : Req)
  | syncSt (r : Req) (a : Word)
  | syncAdd (r : Req) (a : Word)
  | syncCas (r : Req) (compare swap : Word)
  | syncWaitGe (r : Req) (a : Word) (timeout : BitVec 32)
  | syncWaitNe (r : Req) (a : Word) (timeout : BitVec 32)
  | syncAcq (r : Req) (a : Word) (timeout : BitVec 32)
  | syncArrive (r : Req) (a : Word) (timeout : BitVec 32)
  | syncTimeout (agent : AgentId) (tag : Tag)
  -- links and forwarding
  | dataFlit (port : Nat) (h : FlitHdr) (pieces : List Piece)
  | idleFlit (port : Nat) (h : FlitHdr)
  | retryRequest (port : Nat) (h : FlitHdr)
  | linkControl (port : Nat) (h : FlitHdr) (c : LinkCtl)
  | linkUp (port : Nat) (lanes : Nat)
  | cutThroughStall (port : Nat)
  | portDown (port : Nat)
  | shadowSetDrop (port : Nat)
  | flushNotice (src : AgentId) (entries : List FlushEntry)
  -- migration and tiers
  | mapCommit (m : MapMsg)
  | mapAck (m : MapMsg)
  | mapQuery (m : MapMsg)
  | mapAnswer (m : MapMsg)
  | committingTimer (tile : Word)
  | moveStart (tile : Word) (porter : Nat)
  | movePassEnd (tile : Word)
  | moveCloseDone (tile : Word)
  | tierInterval (room : RoomId)
  | layerReleaseTime (e : Nat)
  | evacuationDone (controller : Nat)
  | trayEnumeration (tray : Nat) (t1 t2 : Option TierDecl)
  | trayLost (tray : Nat)
  -- epochs
  | epochInstall (m : EpochMap)
  | epochAck (room : RoomId) (epoch : Epoch) (member : SwitchId)
  | drainCheck (room : RoomId)
  | drainReport (room : RoomId) (epoch : Epoch) (member : SwitchId)
  | epochMemberTimeout (room : RoomId) (member : SwitchId)
  -- rings and the ledger
  | tailDoorbell (ring : BitVec 12) (fn : Option Nat) (count : BitVec 32) (slots : List (BitVec 512))
  | headDoorbell (ring : BitVec 12) (fn : Option Nat) (count : BitVec 32)
  | fetchResume (ring : BitVec 12) (slots : List (BitVec 512))
  | staleSlotReread (ring : BitVec 12) (slots : List (BitVec 512))
  | mirrorAck (e : Nat)
  | mirrorRetry (e : Nat) (lost : Bool)
  | progressInterval (e : Nat)
  | finalRecord (e : Nat)
  | finalRecordAck (e : Nat)
  -- descriptors
  | nop (e : Nat)
  | ringSet (e : Nat)
  | ringDisableDrain (e : Nat)
  | ringDisableEnd (e : Nat)
  | compose (e : Nat) (x : Cells) (paths : List PathSet)
  | extentBind (e : Nat)
  | extentRevoke (e : Nat)
  | domainSet (e : Nat) (x : Cells)
  | roomLimit (e : Nat)
  | lineClear (e : Nat)
  | snapCut (e : Nat)
  | snapOpen (e : Nat)
  | snapClose (e : Nat)
  | handleExpiry (handle : BitVec 16)
  | syncBind (e : Nat)
  | roomTier (e : Nat)
  | migrate (e : Nat)
  | weightStream (e : Nat) (x : Cells)
  | tileFormat (e : Nat)
  | caravanOpen (e : Nat) (x : Cells)
  | caravanRun (e : Nat) (x : Cells)
  | caravanClose (e : Nat)
  | sourceReaderDeliver (caravan : Nat) (x : Cells)
  | collOpen (e : Nat) (x : Cells)
  | collRun (e : Nat)
  | collClose (e : Nat)
  | collReserve (p : CollParams)
  | collReserveReply (ctx : BitVec 10) (switch : SwitchId) (reason : BitVec 7) (deadline : Word) (k : Nat)
  | collData (p : CollPkt)
  | collPart (p : CollPkt) (leaf : SwitchId)
  | collResult (p : CollPkt)
  | collAck (p : CollPkt)
  | collCountReport (p : CollPkt) (poisoned : Nat)
  | collRunEnded (p : CollPkt)
  | collPromiseTime (ctx : BitVec 10)
  | attend (e : Nat) (x : Cells)
  | attnMerge (e : Nat) (x : Cells)
  | gather (e : Nat) (x : Cells)
  | embBag (e : Nat) (x : Cells)
  | filterBook (e : Nat)
  | filterBookEffect (room : RoomId)
  | arrayWrite (e : Nat) (x : Cells)
  | arrayLookup (e : Nat) (x : Cells)
  | arrayScrubStep (array : Nat) (at_ : SlotScrub)
  | autoLoad (e : Nat) (x : Cells)
  | autoUnload (e : Nat)
  | autoScan (e : Nat) (x : Cells)
  | bindKeygen (e : Nat) (x : Cells)
  | pkgOpen (e : Nat) (x : Cells)
  | pkgClose (e : Nat)
  | fwUpdateActivate (e : Nat) (x : Cells)
  | fwUpdateCommitSvn (e : Nat)
  | healthRetireUnit (e : Nat)
  | healthEnterRetiring (e : Nat)
  | healthTakeOver (e : Nat) (m : MirrorImage)
  | faultRead (e : Nat) (x : Cells)
  | scrub (e : Nat) (upsets kept : List Upset)
  | tier0DailyScrub (upsets kept : List Upset)
  | powerCap (e : Nat)
  -- power, heat and health
  | bucketTick (unusedMw : Nat)
  | fixedPowerSample (p : PowerSample)
  | capOverrun (watts : Nat)
  | thermalCondition (die reading : Nat)
  | thermalConditionEnd (die reading : Nat)
  | thermalTrip (die : Nat)
  | unitRetire (code index cause : Nat)
  | budgetOverrun (c : CoreId)
  -- the twin
  | heartbeat
  | witnessCheck (value : Word)
  | twinClaim (old : Word)
  | twinStop
  | takeover (m : MirrorImage)
  | tileRecall (gfa : Word)
  -- fabric time
  | timeSyncTick
  | delayRequestTick
  | timeSync (port : Nat) (f : TimeFrame)
  | delayRequest (port : Nat) (f : TimeFrame)
  | delayResponse (port : Nat) (f : TimeFrame)
  | timeSourceAnswer (source : BitVec 2) (offset : Int)
  | timeSourceWait
  | holdover
  | ptpMessage (port : Nat) (k : PtpKind) (domain : Nat) (f : PtpInfo)
  | ppsIn (tod : Nat)
  -- link sessions
  | hello (port : Nat) (nonce : BitVec 256) (devid : BitVec 384) (version : BitVec 16)
  | certs (port : Nat) (chain : ChainSeen)
  | keyShare (port : Nat) (ek : BitVec 12544)
  | keyEncap (port : Nat) (ct : BitVec 12544)
  | verify (port : Nat) (signature : List Byte) (signatureOk : Bool)
  | finished (port : Nat) (mac : BitVec 256) (agent : AgentId) (tSnp : Nat)
  | abort (port : Nat) (cause : Nat)
  | keyUpdate (port : Nat) (seq : BitVec 12) (generation : BitVec 32)
  | twinKey (port : Nat) (gp : BitVec 32) (ekS : BitVec 12544) (ct : BitVec 12544)
  | sessionTimeout (port : Nat)
  | sessionRetry (port : Nat)
  | keyUpdateCount (port : Nat)
  | rehandshake24h (port : Nat)
  | macsecRekey (port : Nat)
  -- bridge ports
  | bridgeDataFrame (port : Nat) (f : BridgeFrame)
  | bridgeAckFrame (port : Nat) (f : BridgeFrame)
  | bridgeControlFrame (port : Nat) (f : BridgeFrame)
  | bridgeKeepalive (port : Nat) (f : BridgeFrame)
  | bridgeAckTick (port : Nat)
  | bridgeRto (port : Nat)
  | bridgeKeepaliveTick (port : Nat)
  | bridgeSilence (port : Nat)
  -- flex ports
  | cxlMemrd (port : Nat) (offset : Word) (snp : CxlRead) (tag : Tag) (gen : Gen)
  | cxlMemwr (port : Nat) (offset : Word) (data : List Byte) (tag : Tag) (gen : Gen)
  | cxlMemwrptl (port : Nat) (offset : Word) (data : List Byte) (enables : Word) (tag : Tag) (gen : Gen)
  | cxlBirsp (port : Nat) (shared : Bool) (tag : Tag) (offset : Word)
  | biEnable (port : Nat)
  | ideTimeout (port : Nat)
  -- attestation and management
  | attReq (src : AgentId) (requests : List SpdmKind) (nonce : BitVec 256)
  | getVersion (q : SpdmReq)
  | getCapabilities (q : SpdmReq)
  | negotiateAlgorithms (q : SpdmReq)
  | getDigests (q : SpdmReq)
  | getCertificate (q : SpdmReq)
  | challenge (q : SpdmReq)
  | getMeasurements (q : SpdmReq)
  | setCap (instanceId : Byte) (cap : Nat)
  | getStatus (instanceId : Byte)
  | eventAck (instanceId : Byte) (serial : BitVec 32)
  | eventResend
  | tapInstruction (op : TapOp)
  -- power-up, reset and registers
  | coldStart (env : ColdEnv) (mirror : MirrorImage)
  | bootTimeout
  | powerLoss
  | railFault
  | sysRstN (mirror : MirrorImage)
  | mgmtPerstN
  | mgmtLinkDown
  | mgmtLinkUp (numVfs : Nat)
  | vfFlr (fn : Nat)
  | setUpLock (autolock : Bool) (numVfs : Nat) (mirror : MirrorImage)
  | warmReset (value : Word) (mirror : MirrorImage)
  | roomReset (value : Word)
  | bootImageWrite (offset : Nat) (data : List Byte)
  | bootImageGo (len : Nat)
  | bootCheckDone (mirror : MirrorImage)
  | mailboxRequest (f len : Nat)
  | registerWrite (offset size : Nat) (value : Word)
  -- rows at the table's end
  | descriptorDeadline (e : Nat)
  | ppsOut
  | cxlIdeKm (port : Nat) (authenticated : Bool) (key : BitVec 256) (activate : Bool)
  | mapJournalCompact (freed : Nat)
  deriving DecidableEq, Repr

end Sys2Proof
end

