-- ==== Sys2Proof/Decode.lean ====
section
/-!
DEFINITION. Decode.lean: the table of operations gives no row any bits, so no word spells a command from outside. The words
that the manual does encode are those of a caravan core (Tables 10-8 and 10-9): their decoder, which the check of a stage
image uses (R234), and their encoder.
-/

namespace Sys2Proof

/-- The command a word of the table's bits spells: the table gives no bits. -/
def decodeTableWord (_nbits _w : Nat) : Option Instr := none

/-! ### Fields of a core word (Table 10-8) -/

def wMajor (w : BitVec 32) : Nat := (w.extractLsb' 26 6).toNat
def wD (w : BitVec 32) : Reg := w.extractLsb' 21 5
def wA (w : BitVec 32) : Reg := w.extractLsb' 16 5
def wB (w : BitVec 32) : Reg := w.extractLsb' 11 5
def wP (w : BitVec 32) : PReg := w.extractLsb' 8 3
def wT (w : BitVec 32) : Ty := w.extractLsb' 4 4
def wF (w : BitVec 32) : Nat := (w.extractLsb' 0 4).toNat
def wImm (w : BitVec 32) : BitVec 16 := w.extractLsb' 0 16
def wOff (w : BitVec 32) : BitVec 21 := w.extractLsb' 0 21

/-! ### Types that Table 10-9 allows -/

def tyArith : List Nat := [0x0, 0x1, 0x2, 0x6, 0x7]
def tyDot : List Nat := [0x1, 0x2, 0x3, 0x4, 0x5, 0x7, 0x8, 0x9, 0xA, 0xB]
def tyPlain : List Nat := [0x0, 0x1, 0x2, 0x3, 0x4, 0x5, 0x6, 0x7, 0x8]
def tyShuf : List Nat := [0x0, 0x1, 0x3, 0x5]
def tyAcc : List Nat := [0x0, 0x1, 0x2, 0x3, 0x4, 0x6, 0x7]

/-- Keeps an instruction whose word meets a condition. -/
def keepIf (b : Bool) (i : Instr) : Option Instr := if b then some i else none

/-- Major 0x01. -/
def decodeScalar (c : CoreId) (w : BitVec 32) : Option Instr :=
  let (d, a, b) := (wD w, wA w, wB w)
  if wP w != 0 || wT w != 0 then none
  else match wF w with
    | 0x0 => some (.add c d a b)
    | 0x1 => some (.sub c d a b)
    | 0x2 => some (.and c d a b)
    | 0x3 => some (.or c d a b)
    | 0x4 => some (.xor c d a b)
    | 0x5 => some (.shl c d a b)
    | 0x6 => some (.shr c d a b)
    | 0x7 => some (.sra c d a b)
    | 0x8 => some (.mul c d a b)
    | 0x9 => some (.slt c d a b)
    | _ => none

/-- Major 0x20. -/
def decodeVector (c : CoreId) (w : BitVec 32) : Option Instr :=
  let (d, a, b, p, t) := (wD w, wA w, wB w, wP w, wT w)
  let ar := tyArith.contains t.toNat
  match wF w with
  | 0x0 => keepIf ar (.vadd c t d a b p)
  | 0x1 => keepIf ar (.vsub c t d a b p)
  | 0x2 => keepIf ar (.vmul c t d a b p)
  | 0x3 => keepIf ar (.vfma c t d a b p)
  | 0x4 => keepIf ar (.vmax c t d a b p)
  | 0x5 => keepIf ar (.vmin c t d a b p)
  | 0x6 => keepIf (tyDot.contains t.toNat && p == 0) (.vdot c t d a b)
  | 0x7 => keepIf (tyPlain.contains t.toNat && tyPlain.contains (b.toNat % 16) && p == 0) (.vcvt c t d a b)
  | 0x8 => keepIf (t == 0 && b == 0 && p == 0) (.vexp2 c t d a)
  | 0x9 => keepIf (t == 0 && b == 0 && p == 0) (.vrcp c t d a)
  | 0xA => keepIf ((t == 0 || t == 1 || t == 2 || t == 6) && b == 0) (.vrsum c t d a p)
  | 0xB => keepIf ((t == 0 || t == 6) && b == 0) (.vrmax c t d a p)
  | 0xC => keepIf (ar && p == 0) (.vcmp c t d a b)
  | 0xD => keepIf (tyPlain.contains t.toNat) (.vsel c t d a b p)
  | _ => none

/-- Major 0x21. -/
def decodeBits (c : CoreId) (w : BitVec 32) : Option Instr :=
  let (d, a, b, t) := (wD w, wA w, wB w, wT w)
  let sh := tyShuf.contains t.toNat
  if wP w != 0 then none
  else match wF w with
    | 0x0 => keepIf (t == 0) (.vand c d a b)
    | 0x1 => keepIf (t == 0) (.vor c d a b)
    | 0x2 => keepIf (t == 0) (.vxor c d a b)
    | 0x3 => keepIf sh (.vshuf c t d a b)
    | 0x4 => keepIf (sh && b == 0) (.vbcast c t d a)
    | 0x5 => keepIf sh (.vext c t d a b)
    | _ => none

/-- Major 0x28. -/
def decodeExact (c : CoreId) (w : BitVec 32) : Option Instr :=
  let (d, a, b, p, t) := (wD w, wA w, wB w, wP w, wT w)
  match wF w with
  | 0x0 => keepIf (tyAcc.contains t.toNat) (.xadd c t d a b p)
  | 0x1 => keepIf (t == 0 && b == 0 && p == 0) (.xsave c d a)
  | 0x2 => keepIf (t == 0 && b == 0 && p == 0) (.xload c d a)
  | 0x3 => keepIf (tyAcc.contains t.toNat && a == 0 && p == 0) (.xrnd c t d b)
  | _ => none

/-- Major 0x30. -/
def decodeStream (c : CoreId) (w : BitVec 32) : Option Instr :=
  let (d, a, b, t) := (wD w, wA w, wB w, wT w)
  if wP w != 0 then none
  else match wF w with
    | 0x0 => keepIf (t == 0 && a == 0 && decide (b.toNat < 8)) (.recv c d b)
    | 0x1 => keepIf (t == 0 && d == 0 && decide (b.toNat < 4)) (.send c a b)
    | 0x2 => keepIf (t == 0 && d == 0 && b == 0) (.free c a)
    | 0x3 => keepIf (decide (t.toNat < 8)) (.mget c t d a b)
    | 0x4 => keepIf (decide (t.toNat < 8) && decide (t.toNat % 2 = 0)) (.mput c t d a b)
    | 0x5 => keepIf (decide (t.toNat < 8)) (.msync c t d a b)
    | 0x6 => keepIf (t == 0 && d == 0 && b == 0) (.mwait c a)
    | 0x7 => keepIf (t == 0 && d == 0 && a == 0 && b == 0) (.fence c)
    | _ => none

/-- Major 0x38. -/
def decodeControl (c : CoreId) (w : BitVec 32) : Option Instr :=
  let (d, a, b) := (wD w, wA w, wB w)
  if wP w != 0 || wT w != 0 then none
  else match wF w with
    | 0x0 => keepIf (a == 0 && b == 0) (.time c d)
    | 0x1 => some (.csrr c d a b)
    | 0x2 => keepIf (d == 0 && a == 0 && b == 0) (.done c)
    | _ => none

/-- The core instruction that a word encodes; none for an invalid encoding (R240). -/
def decodeCoreWord (c : CoreId) (w : BitVec 32) : Option Instr :=
  let (d, a, i) := (wD w, wA w, wImm w)
  match wMajor w with
  | 0x01 => decodeScalar c w
  | 0x02 => some (.addi c d a i)
  | 0x03 => some (.andi c d a i)
  | 0x04 => some (.ori c d a i)
  | 0x05 => some (.shli c d a i)
  | 0x06 => some (.shri c d a i)
  | 0x07 => keepIf (a == 0) (.lui c d i)
  | 0x08 => some (.beq c d a i)
  | 0x09 => some (.bne c d a i)
  | 0x0A => some (.blt c d a i)
  | 0x0B => some (.bge c d a i)
  | 0x0C => some (.jal c d (wOff w))
  | 0x0D => keepIf (d == 0 && i == 0) (.jr c a)
  | 0x10 => some (.ldw c d a i)
  | 0x11 => some (.ldd c d a i)
  | 0x12 => some (.stw c d a i)
  | 0x13 => some (.std c d a i)
  | 0x14 => some (.vld c d a i)
  | 0x15 => some (.vst c d a i)
  | 0x16 => keepIf ((wT w == 0 || wT w == 6) && wF w == 0) (.vgth c (wT w) d a (wB w) (wP w))
  | 0x20 => decodeVector c w
  | 0x21 => decodeBits c w
  | 0x24 => keepIf (d == 0 && wB w == 0 && wP w == 0 && wT w == 0 && decide (wF w < 2)) (.mvx c (BitVec.ofNat 1 (wF w)) a)
  | 0x28 => decodeExact c w
  | 0x30 => decodeStream c w
  | 0x38 => decodeControl c w
  | _ => none

/-! ### The encoder -/

def fmtA (major : BitVec 6) (d a b : Reg) (p : PReg) (t : Ty) (f : BitVec 4) : BitVec 32 := major ++ d ++ a ++ b ++ p ++ t ++ f
def fmtB (major : BitVec 6) (d a : Reg) (imm : BitVec 16) : BitVec 32 := major ++ d ++ a ++ imm
def fmtJ (major : BitVec 6) (d : Reg) (off : BitVec 21) : BitVec 32 := major ++ d ++ off

/-- The word of a core instruction; none for every other command. -/
def encodeCoreWord : Instr → Option (BitVec 32)
  | .add _ d a b => some (fmtA 0x01 d a b 0 0 0x0)
  | .sub _ d a b => some (fmtA 0x01 d a b 0 0 0x1)
  | .and _ d a b => some (fmtA 0x01 d a b 0 0 0x2)
  | .or _ d a b => some (fmtA 0x01 d a b 0 0 0x3)
  | .xor _ d a b => some (fmtA 0x01 d a b 0 0 0x4)
  | .shl _ d a b => some (fmtA 0x01 d a b 0 0 0x5)
  | .shr _ d a b => some (fmtA 0x01 d a b 0 0 0x6)
  | .sra _ d a b => some (fmtA 0x01 d a b 0 0 0x7)
  | .mul _ d a b => some (fmtA 0x01 d a b 0 0 0x8)
  | .slt _ d a b => some (fmtA 0x01 d a b 0 0 0x9)
  | .addi _ d a i => some (fmtB 0x02 d a i)
  | .andi _ d a i => some (fmtB 0x03 d a i)
  | .ori _ d a i => some (fmtB 0x04 d a i)
  | .shli _ d a i => some (fmtB 0x05 d a i)
  | .shri _ d a i => some (fmtB 0x06 d a i)
  | .lui _ d i => some (fmtB 0x07 d 0 i)
  | .beq _ a b i => some (fmtB 0x08 a b i)
  | .bne _ a b i => some (fmtB 0x09 a b i)
  | .blt _ a b i => some (fmtB 0x0A a b i)
  | .bge _ a b i => some (fmtB 0x0B a b i)
  | .jal _ d i => some (fmtJ 0x0C d i)
  | .jr _ a => some (fmtB 0x0D 0 a 0)
  | .ldw _ d a i => some (fmtB 0x10 d a i)
  | .ldd _ d a i => some (fmtB 0x11 d a i)
  | .stw _ d a i => some (fmtB 0x12 d a i)
  | .std _ d a i => some (fmtB 0x13 d a i)
  | .vld _ d a i => some (fmtB 0x14 d a i)
  | .vst _ d a i => some (fmtB 0x15 d a i)
  | .vgth _ t d a b p => some (fmtA 0x16 d a b p t 0)
  | .vadd _ t d a b p => some (fmtA 0x20 d a b p t 0x0)
  | .vsub _ t d a b p => some (fmtA 0x20 d a b p t 0x1)
  | .vmul _ t d a b p => some (fmtA 0x20 d a b p t 0x2)
  | .vfma _ t d a b p => some (fmtA 0x20 d a b p t 0x3)
  | .vmax _ t d a b p => some (fmtA 0x20 d a b p t 0x4)
  | .vmin _ t d a b p => some (fmtA 0x20 d a b p t 0x5)
  | .vdot _ t d a b => some (fmtA 0x20 d a b 0 t 0x6)
  | .vcvt _ t d a b => some (fmtA 0x20 d a b 0 t 0x7)
  | .vexp2 _ t d a => some (fmtA 0x20 d a 0 0 t 0x8)
  | .vrcp _ t d a => some (fmtA 0x20 d a 0 0 t 0x9)
  | .vrsum _ t d a p => some (fmtA 0x20 d a 0 p t 0xA)
  | .vrmax _ t d a p => some (fmtA 0x20 d a 0 p t 0xB)
  | .vcmp _ t d a b => some (fmtA 0x20 d a b 0 t 0xC)
  | .vsel _ t d a b p => some (fmtA 0x20 d a b p t 0xD)
  | .vand _ d a b => some (fmtA 0x21 d a b 0 0 0x0)
  | .vor _ d a b => some (fmtA 0x21 d a b 0 0 0x1)
  | .vxor _ d a b => some (fmtA 0x21 d a b 0 0 0x2)
  | .vshuf _ t d a b => some (fmtA 0x21 d a b 0 t 0x3)
  | .vbcast _ t d a => some (fmtA 0x21 d a 0 0 t 0x4)
  | .vext _ t d a b => some (fmtA 0x21 d a b 0 t 0x5)
  | .mvx _ f a => some (fmtA 0x24 0 a 0 0 0 (f.setWidth 4))
  | .xadd _ t d a b p => some (fmtA 0x28 d a b p t 0x0)
  | .xsave _ d a => some (fmtA 0x28 d a 0 0 0 0x1)
  | .xload _ d a => some (fmtA 0x28 d a 0 0 0 0x2)
  | .xrnd _ t d b => some (fmtA 0x28 d 0 b 0 t 0x3)
  | .recv _ d b => some (fmtA 0x30 d 0 b 0 0 0x0)
  | .send _ a b => some (fmtA 0x30 0 a b 0 0 0x1)
  | .free _ a => some (fmtA 0x30 0 a 0 0 0 0x2)
  | .mget _ t d a b => some (fmtA 0x30 d a b 0 t 0x3)
  | .mput _ t d a b => some (fmtA 0x30 d a b 0 t 0x4)
  | .msync _ t d a b => some (fmtA 0x30 d a b 0 t 0x5)
  | .mwait _ a => some (fmtA 0x30 0 a 0 0 0 0x6)
  | .fence _ => some (fmtA 0x30 0 0 0 0 0 0x7)
  | .time _ d => some (fmtA 0x38 d 0 0 0 0 0x0)
  | .csrr _ d a b => some (fmtA 0x38 d a b 0 0 0x1)
  | .done _ => some (fmtA 0x38 0 0 0 0 0 0x2)
  | _ => none

end Sys2Proof
end

