-- ==== Sys2Proof/Config.lean ====
section
/-!
DEFINITION. Config.lean: the values that the manual leaves open, or that it takes from outside itself (cryptographic
functions of other standards). None has a body, so no proof can lean on a value of one.
-/

namespace Sys2Proof.Config

/-- How far an island's copy of fabric time lies from the reference: taken modulo 9, less 4 ns (R13, R14). -/
opaque islandSkew : Nat → Nat

/-- The backing-store set of a line in its slice, modulo 2^20 (Table 5-1 gives the number of sets, no index function). -/
opaque dirSet : Nat → Nat

/-- Whether an agent ID is the agent of some switch (R110); fabric management assigns them (Table 2-2). -/
opaque switchAgent : AgentId → Bool

/-- Fill of a channel's queue at the home, in sixteenths, by channel and slots waiting in it (R60); the manual gives no capacity
of that queue. -/
opaque queueFill : Nat → Nat → Nat

/-- Channels of a tray (R64); a tray declares no channel count at enumeration (R154). -/
opaque trayChannels : Nat → Nat

/-- Whether an inter-switch port is a branch of a group's tree: Fraip sets the entries of all switches as loop-free trees (R70), by
a topology that one switch does not hold. -/
opaque treePort : Nat → Nat → Bool

/-- Round trip of the link behind a port, in ns (R324); fibre lengths are the integrator's. -/
opaque linkRtt : Nat → Nat

/-- Switches that a request crosses before the home it names (R95); the topology is fabric management's. -/
opaque crossings : Nat → Nat

/-- A byte that a read of another home returns, where the row of the table that reads it brings none. -/
opaque remoteByte : Nat → Byte

/-- The agent ID of a switch (Table 2-2: fabric management assigns it). -/
opaque agentOf : SwitchId → AgentId

/-- What the mirror of the partner says of a commit: tile and epoch (R165); the journal's layout is not given. -/
opaque mirrorVerdict : Nat → Nat → Bool

/-- Quantities of work that the admission test takes from what a descriptor's lists will name (R286, R314, R290): the
descriptor and the number of the quantity. The manual does not say how the test learns them. -/
opaque workUnits : Nat → Nat → Nat

/-- Which of its two neighbours a faithfully rounded result of VEXP2 (0) or VRCP (1) takes, for an operand (R248). -/
opaque roundsUp : Nat → Nat → Bool

/-- Element 0 of VRMAX when the predicate chooses no element, by type (Table 10-9 states no value). -/
opaque emptyMax : Nat → Nat

/-- The switches of a context besides the lead, by lead and context number and position: the manual does not say how one
switch learns them (R264). -/
opaque ctxSwitch : Nat → Nat → SwitchId

/-- A normalised value whose exact divisor is zero: output type and operand (R281 states no result). -/
opaque zeroDivisor : Nat → Nat → Nat

/-- The swap operand of a SYNC_CAS that a core issues: MSYNC has one operand, and Table 10-9 states no other (Table 6-10). -/
opaque msyncSwap : Nat → Word

/-- Energy that early guaranteed work, or a room's elastic work above its floor, takes of what a bucket offers, in mW, and the 25 MHz
steps by which a cluster's clock is raised with it: the draw and the consumer (R336 states who goes first, not how much each uses). -/
opaque takes : Nat → Nat → Nat

/-- Residence tier of the mirror region, as a fault record of an entry taken as free names it: this switch does not know where
the twin keeps it (R351, Table 15-11). -/
opaque mirrorTier : Nat

/-- What a byte of the boot image window reads as before the host has written it (Table 19-19 gives the window no reset value). -/
opaque imageByte : Nat → Byte

/-! ### Algorithms of other standards, and what they are applied to (chapter 16) -/

/-- SHA3-384 of bytes; byte 0 of the hash is the least significant. -/
opaque sha3 : List Byte → BitVec 384

/-- KMAC256(K, X, L, S): key, input, bits of output, number of the customisation string (`Keys`). -/
opaque kmac : Nat → List Byte → Nat → Nat → Nat

/-- The CTR_DRBG of R370: number of the draw, bits drawn. -/
opaque drbg : Nat → Nat → Nat

/-- ML-KEM-1024: encapsulation key of a seed d, z. -/
opaque kemEk : BitVec 512 → BitVec 12544

/-- ML-KEM-1024: ciphertext and shared secret that a message m gives under an encapsulation key. -/
opaque kemCt : BitVec 12544 → BitVec 256 → BitVec 12544
opaque kemSs : BitVec 12544 → BitVec 256 → BitVec 256

/-- ML-KEM-1024: what the decapsulation key of a seed makes of a ciphertext. -/
opaque kemDecaps : BitVec 512 → BitVec 12544 → BitVec 256

/-- ML-DSA-65: public key of a seed; signature over bytes; whether a signature verifies. -/
opaque mldsaPk : BitVec 256 → BitVec 15616
opaque mldsaSign : BitVec 256 → List Byte → BitVec 26472
opaque mldsaOk : BitVec 15616 → List Byte → BitVec 26472 → Bool

/-- AES-256-GCM: ciphertext and tag that a key, an IV, additional data and a plaintext give. -/
opaque gcmSeal : BitVec 256 → BitVec 96 → List Byte → List Byte → List Byte × List Byte

/-- AES-256-GCM with an IV of zero: what a key opens of 32 B ciphertext and 16 B tag under additional data. -/
opaque gcmUnwrap : BitVec 256 → BitVec 384 → BitVec 384 → Option (BitVec 256)

/-- AES-256-XTS of one data unit: what a key pair and a tweak make of a plaintext, and of a ciphertext (R183). -/
opaque xtsSeal : BitVec 512 → BitVec 128 → List Byte → List Byte
opaque xtsOpen : BitVec 512 → BitVec 128 → List Byte → List Byte

/-- AES-256-CMAC of bytes. -/
opaque cmac : BitVec 256 → List Byte → BitVec 128

/-- AES-256-GCM: what a key and an IV open of additional data, ciphertext and tag; none where the tag does not match. -/
opaque gcmOpen : BitVec 256 → BitVec 96 → List Byte → List Byte → List Byte → Option (List Byte)

/-- SHA3-384 of the boot ROM (M_1, R390). -/
opaque romHash : BitVec 384

/-- The certificate chain of slot 0 in DER: DevID seed, alias seed, M_2, SVN (R371, R390). -/
opaque certChain : BitVec 256 → BitVec 256 → BitVec 384 → Nat → List Byte

/-- The public key of the root of Korroth and the identity of this switch in other standards' terms: JEDEC manufacturer
code (R413). -/
opaque jedecCode : BitVec 11

end Sys2Proof.Config
end

