-- ==== Sys2Proof/Machine/State.lean ====
section
/-!
DEFINITION. Machine/State.lean: everything the manual gives one MV7400 to hold, as plain data, grouped by the
unit that holds it; the two reasons a step can stop; and the state right after reset. A field's default
value is its value in `State.reset`; `State.reset` is a cold start that has reached step 6 of
Table 18-3 (BAR0 open, every set-up register at its reset value, the set-up lock not taken).
-/

namespace Sys2Proof.Machine

/-- Why a step faults. No step of this block faults: the manual gives every access and every event an
answer (a core never faults, R219; every request has a status, R83), so the type is empty. Safe. -/
inductive Fault where
  deriving DecidableEq, Repr

/-- Why a command has no meaning. -/
inductive Refusal where
  /-- Raised by `exec` for a row that has no meaning yet. Safe: the machine stops. -/
  | notModelled (mnemonic : String)
  /-- Raised by a caravan core instruction whose type code Table 10-9 does not allow: R240 calls the encoding
  invalid, and R234 keeps every such word out of a loaded image. Safe: no run reaches it. -/
  | invalidEncoding
  deriving DecidableEq, Repr

/-! ### Power, boot and the set-up registers -/

/-- Where the switch is between power-off and running (R415, R418, R419, R446). -/
inductive Power where
  /-- PWRGOOD_IN low, or every clock stopped by a trip (R339) or a rail fault (R415). -/
  | off
  /-- test-hold (R418). -/
  | testHold
  /-- the boot ROM waits for an image in the PF mailbox (R417, R446). -/
  | imageWait
  /-- BAR0 open, the set-up lock not taken (R420). -/
  | setUp
  /-- the set-up lock is taken. -/
  | running
  /-- Failed: no work, every lane down (Table 15-7). -/
  | failed
  deriving DecidableEq, Repr

/-- Fuses and the one-time-programmable array of MD0 (R1, R387, R371). -/
structure Fuses where
  /-- ordering code MV7400-A20 (R1); false is A24. -/
  a20 : Bool := false
  /-- device serial number (R435). -/
  serial : Word := 0
  /-- unique device secret (R371). -/
  uds : BitVec 256 := 0
  /-- SHA3-384 of the firmware-signing keys, slots 0 to 3 (R387). -/
  keyHashes : List (BitVec 384) := [0, 0, 0, 0]
  /-- revocation bits (R387). -/
  revoked : BitVec 4 := 0
  /-- fused minimum security version number (R387). -/
  minSvn : Nat := 0
  /-- SHA3-384 of the Korroth root, trust anchor 0 (R377, R441). -/
  korrothRoot : BitVec 384 := 0
  deriving DecidableEq, Repr

/-- A slot of the boot flash (Table 18-2). -/
structure FlashSlot where
  seq : BitVec 32
  image : List Byte
  deriving DecidableEq, Repr

/-- The set-up record (Table 18-2): autolock byte, RWL values by BAR0 offset, SHA3-384. -/
structure SetupRec where
  autolock : Bool
  regs : List (Nat × Word)
  hash : BitVec 384
  deriving DecidableEq, Repr

/-- The measurement chain and the running image (R390, R395). -/
structure Measure where
  m2 : BitVec 384 := 0
  /-- 48 zero bytes before the set-up lock (Table 16-10). -/
  m3 : BitVec 384 := 0
  e2 : BitVec 384 := 0
  e3 : BitVec 384 := 0
  /-- security version number of the running image. -/
  svn : Nat := 0
  /-- key slot of the running image. -/
  slot : Nat := 0
  /-- seed of the alias key pair (Table 16-1). -/
  aliasSeed : BitVec 256 := 0
  deriving DecidableEq, Repr

/-- Boot, reset and the boot mailbox (chapter 18, R446). -/
structure Boot where
  power : Power := .setUp
  /-- `CTL.BOOT` fields (Table 18-9). -/
  kind : Nat := 1
  cause : Nat := 0
  stage : Nat := 6
  source : Nat := 0
  check : Nat := 0
  recBad : Nat := 0
  roomRst : Nat := 0
  rstIgn : Nat := 0
  /-- boot flash image slots (R416). -/
  flash0 : Option FlashSlot := none
  flash1 : Option FlashSlot := none
  /-- set-up record of the flash (R416). -/
  setupRec : Option SetupRec := none
  /-- retirement record of the flash (R416). -/
  retireRec : List (Nat × Nat) := []
  /-- `MBOX.BOOT_CTL` (Table 19-20). -/
  mboxGo : Bool := false
  mboxState : Nat := 0
  mboxCheck : Nat := 0
  mboxLen : Nat := 0
  /-- `MBOX.IMAGE`, bytes written (offset, byte). -/
  mboxImage : List Host.Cell := []
  /-- go writes and window writes ignored (R446, R447). -/
  mboxIgnored : Nat := 0
  measure : Measure := {}
  /-- instruction held by the TAP (R413). -/
  tap : TapOp := .idcode
  /-- rooms whose room reset is under way (R426). -/
  roomResets : List RoomId := []
  deriving DecidableEq, Repr

/-- The set-up registers of BAR0 (chapter 19). -/
structure Regs where
  /-- RWL registers that differ from their reset value: (BAR0 offset, value), offsets rising (R431). -/
  rwl : List (Nat × Word) := []
  /-- the set-up lock is taken (R420). -/
  locked : Bool := false
  /-- `autolock` of `CTL.LOCK` (Table 18-7). -/
  autolock : Bool := false
  /-- `HLTH.ACCESS` [63:32]: RWL writes ignored (R431, R432). -/
  rwlIgnored : Nat := 0
  /-- `HLTH.ACCESS` [31:0]: writes ignored for size, alignment or offset (R430). -/
  badIgnored : Nat := 0
  deriving DecidableEq, Repr

/-! ### Links, ports and the switch core -/

/-- One handshake and the session it makes (chapter 16, R376 to R379). -/
structure Session where
  /-- steps of Table 16-4 done: 0 none, 1 HELLO sent, 2 chain checked, 4 secret shared, 5 VERIFY
  checked, 6 established. -/
  phase : Nat := 0
  /-- handshake number (Table 16-2). -/
  hs : BitVec 16 := 0
  /-- this end is the initiator (R376). -/
  initiator : Bool := false
  peerDevid : BitVec 384 := 0
  /-- messages sent (true) and received so far, the input of TH: code of Table 16-3 and content (R376). -/
  transcript : List (Nat × Bool × List Byte) := []
  /-- shared secret of the ephemeral encapsulation, until step 6. -/
  ss : BitVec 256 := 0
  /-- seed of the ephemeral key pair, until step 6. -/
  dk : BitVec 512 := 0
  kHs : BitVec 256 := 0
  kTx : BitVec 256 := 0
  kRx : BitVec 256 := 0
  ivTx : BitVec 96 := 0
  ivRx : BitVec 96 := 0
  /-- flits encrypted under the present sending key (R378). -/
  txCount : Nat := 0
  txGen : BitVec 32 := 0
  rxGen : BitVec 32 := 0
  /-- first seq under the peer's new key, while the old one is kept (R379). -/
  rxSwitch : Option (BitVec 12) := none
  kRxOld : BitVec 256 := 0
  /-- fabric time of step 1 of the handshake under way. -/
  started : Nat := 0
  /-- wait before the next attempt, in ms (R377). -/
  backoff : Nat := 10
  /-- when a failed port tries again. -/
  retryAt : Option Nat := none
  deriving DecidableEq, Repr

/-- Where a packet in the packet buffer came from: the port and channel whose credits it holds, and its number there (R56). -/
structure Origin where
  port : Nat
  vc : BitVec 3
  id : Nat
  deriving DecidableEq, Repr

/-- A packet on an egress queue: where it came from, unless this switch formed it, and whether it was marked here (R72). -/
structure Queued where
  pkt : Packet
  org : Option Origin := none
  marked : Bool := false
  deriving DecidableEq, Repr

/-- A flit as sent (Tables 3-2, 3-3): its header and the slots it carries, which are slots `first` on of one packet, from
slot 0 of the flit on. A retry sends it again as first sent (R53). -/
structure TxFlit where
  seq : BitVec 12
  ack : BitVec 12 := 0
  /-- 0 data, 1 idle, 2 retry request. -/
  kind : Nat := 0
  /-- the two credit returns: channel and slots. -/
  a : Nat × Nat := (0, 0)
  b : Nat × Nat := (0, 0)
  firstHdr : Nat := 31
  abort : Bool := false
  pkt : Option Packet := none
  first : Nat := 0
  slots : Nat := 0
  /-- its 448 B as first sent (R48, R53, R378). -/
  wire : List Byte := []
  deriving DecidableEq, Repr

/-- A packet being cut through on an egress (R65, R66): its slots received and sent, and whether it is to be aborted. -/
structure Cut where
  q : Queued
  got : Nat
  sent : Nat := 0
  aborting : Bool := false
  deriving DecidableEq, Repr

/-- One fabric port (chapter 3, Table 19-6). -/
structure FabPort where
  id : Nat
  up : Bool := false
  /-- lanes in use: 2, 4 or 8. -/
  lanes : Nat := 2
  downs : Nat := 0
  retries : Nat := 0
  malformed : Nat := 0
  hopDiscards : Nat := 0
  mcastDiscards : Nat := 0
  marked : Nat := 0
  flushed : Nat := 0
  /-- next data flit number to send (R48). -/
  txSeq : BitVec 12 := 0
  /-- next data flit number expected (R53). -/
  rxSeq : BitVec 12 := 0
  /-- replay buffer, oldest first (R53: 1,024 flits). -/
  replay : List TxFlit := []
  /-- credits held toward the peer, channel 0 first (R56). -/
  credits : List Nat := [0, 0, 0, 0, 0, 0, 0, 0]
  /-- credits owed to the peer, channel 0 first (R56). -/
  owed : List Nat := [0, 0, 0, 0, 0, 0, 0, 0]
  /-- packets queued on the egress, in order of arrival, all channels. -/
  queue : List Queued := []
  /-- slots of the packet buffer given to the peer as credits, channel 0 first: its own, its packets', and those owed (R77). -/
  given : List Nat := [0, 0, 0, 0, 0, 0, 0, 0]
  /-- inbound packet in progress and its slots received. -/
  partialIn : Option (Queued × Nat) := none
  /-- the inbound packet in progress is cut through to these egresses (R65). -/
  cutTo : List Nat := []
  /-- its cut-throughs that were abandoned (R66): once stored, it goes to the head of these egresses, in this form. -/
  stalled : List (Nat × Queued) := []
  /-- its other copies, placed once it is stored (R70): an egress, or this switch's own units. -/
  copies : List (Option Nat × Queued) := []
  /-- the packet in progress has been acted on, for some egress took it as a cut-through. -/
  cutIn : Bool := false
  /-- packet being cut through on this egress (R65). -/
  cutting : Option Cut := none
  /-- successive failures of the expected seq (R54). -/
  failRun : Nat := 0
  /-- the seq that the peer asked for last, and how often in succession (R54). -/
  askRun : BitVec 12 × Nat := (0, 0)
  /-- when retries happened within the last 1 ms (R54). -/
  retryTimes : List Nat := []
  /-- a retry request has been sent and its flit is awaited (R53). -/
  retryAsked : Bool := false
  sess : Session := {}
  /-- the handshake under way inside the session (R379). -/
  resess : Option Session := none
  /-- fabric time of the last handshake's end (R379). -/
  sessAt : Nat := 0
  /-- sequence numbers of the time frames sent (Table 14-1). -/
  syncSeq : BitVec 16 := 0
  reqSeq : BitVec 16 := 0
  /-- t_tx of the delay request outstanding (R319). -/
  reqTx : Option Nat := none
  /-- t_tx and t_rx of the last sync received (R319). -/
  lastSync : Option (Nat × Nat) := none
  /-- time frames with an unknown message, ignored (Table 14-1). -/
  timeIgnored : Nat := 0
  deriving DecidableEq, Repr

/-- A bridge frame kept until acknowledged (R407). -/
structure BrgFrame where
  seq : BitVec 32
  packets : List Queued
  control : Bool
  /-- bytes 8 to 407 of a session message in the layout of Table 16-2. -/
  content : List Byte := []
  resends : Nat := 0
  /-- when it was first sent. -/
  sentAt : Nat := 0
  deriving DecidableEq, Repr

/-- One bridge port (chapter 17, Table 19-6). -/
structure BrgPort where
  id : Nat
  up : Bool := false
  lanes : Nat := 8
  downs : Nat := 0
  valFails : Nat := 0
  /-- validation failures in the present 1 ms: its start and their number (R409). -/
  failWin : Nat × Nat := (0, 0)
  resent : Nat := 0
  pauseDiscards : Nat := 0
  otherDiscards : Nat := 0
  marked : Nat := 0
  flushed : Nat := 0
  /-- malformed packets, hop-limit discards and multicast discards of packets that entered here (R59, R61, R69). -/
  malformed : Nat := 0
  hopDiscards : Nat := 0
  mcastDiscards : Nat := 0
  txSeq : BitVec 32 := 0
  rxSeq : BitVec 32 := 0
  unacked : List BrgFrame := []
  credits : List Nat := [0, 0, 0, 0, 0, 0, 0, 0]
  owed : List Nat := [0, 0, 0, 0, 0, 0, 0, 0]
  given : List Nat := [0, 0, 0, 0, 0, 0, 0, 0]
  queue : List Queued := []
  /-- since when an acceptance has not been acknowledged (R407). -/
  ackOwed : Option Nat := none
  /-- when the last frame was accepted; when the last frame was sent; when the acknowledgement advanced. -/
  lastAccept : Nat := 0
  lastSent : Nat := 0
  lastAckAt : Nat := 0
  /-- measured round trip in ns (R407). -/
  rtt : Nat := 0
  /-- transmit SAK, salt, association number and frames under it (R409). -/
  sak : BitVec 256 := 0
  salt : BitVec 96 := 0
  an : BitVec 2 := 0
  pn : Nat := 0
  sess : Session := {}
  resess : Option Session := none
  sessAt : Nat := 0
  deriving DecidableEq, Repr

/-- A back-invalidate snoop that the host has not answered: the snoop, and whether it wrote the line since (R403). -/
structure FlexSnoop where
  tag : Tag
  gfa : Word
  home : AgentId
  room : RoomId
  epoch : Epoch
  wcls : BitVec 2
  written : Bool := false
  deriving DecidableEq, Repr

/-- A request of a device-role flex port: the host's tag, its packet, and whether a flush notice named it (R75). -/
structure FlexSent where
  host : Tag
  pkt : Packet
  flushed : Bool := false
  deriving DecidableEq, Repr

/-- One flex port (R401 to R404). -/
structure FlexPort where
  id : Nat
  up : Bool := false
  lanes : Nat := 4
  linkUpAt : Nat := 0
  /-- the SPDM secured session is established (R404). -/
  secured : Bool := false
  /-- IDE keys programmed (R404). -/
  keys : List (BitVec 256) := []
  ideActive : Bool := false
  /-- the host has set BI Enable (R403). -/
  biEnable : Bool := false
  /-- device role: snoops passed to the host; lines granted unique from other homes; partial writes: the tag of the write and
  those of its stores that are not acknowledged (R403). -/
  snoops : List FlexSnoop := []
  unique : List Nat := []
  partials : List (Tag × List Tag) := []
  /-- device role: requests outstanding, and requests that wait to go out: stale ones under a new tag (R35), and those of a
  stopped flow (R75); snoops held for a read outstanding (R116); last gen on a tag of the port's own choosing; newest epoch
  received (R33). -/
  sent : List FlexSent := []
  again : List FlexSent := []
  held : List Packet := []
  gens : List (Tag × Gen) := []
  epoch : Epoch := 0
  backoff : Nat := 10
  retryAt : Option Nat := none
  deriving DecidableEq, Repr

/-- Where an agent attaches: the port (0 to 127 fabric, 128 to 143 bridge, 144 to 159 flex) and its declared snoop time
in ns (R23, R116). -/
structure Attach where
  agent : AgentId
  port : Nat
  tSnp : Nat := 2000
  deriving DecidableEq, Repr

/-- Path sets of one live epoch of a room (R62), with each member's twin (R357). -/
structure RoomPaths where
  room : RoomId
  epoch : Epoch
  paths : List PathSet
  twins : List (SwitchId × SwitchId) := []
  deriving DecidableEq, Repr

/-- A multicast group entry (R69): egress ports and local delivery. -/
structure Group where
  id : Nat
  ports : List Nat
  localDelivery : Bool
  deriving DecidableEq, Repr

/-- A token bucket (R93): tokens in bits and when it was last filled. `reserved` is the class group. -/
structure Bucket where
  agent : AgentId
  room : RoomId
  reserved : Bool
  tokens : Nat
  filledAt : Nat
  deriving DecidableEq, Repr

/-- A tracker entry of the attachment switch (R98, R100). -/
structure AttEntry where
  agent : AgentId
  tag : Tag
  gen : Gen
  epoch : Epoch
  room : RoomId
  gfa : Word
  opcode : BitVec 8
  nb : BitVec 7
  /-- arrival, or that of the latest reissue. -/
  tA : Nat
  port : Nat
  deriving DecidableEq, Repr

/-- The fabric side of the switch: ports, routes, groups, buckets, attachment trackers, and packets on
their way inside the switch. -/
structure Fabric where
  ports : List FabPort := []
  brg : List BrgPort := []
  flex : List FlexPort := []
  attach : List Attach := []
  routes : List RoomPaths := []
  /-- ports lost at t0 whose shadow window is open (R73): the port, t0, and the ports that were up before, which make the
  former sets. -/
  shadows : List (Nat × Nat × List Nat) := []
  /-- when the last up port toward an agent was lost (R124). -/
  noRoute : List (AgentId × Nat) := []
  groups : List Group := []
  buckets : List Bucket := []
  /-- best-effort requests that wait for tokens (R93), with where they entered. -/
  tokenWait : List (Origin × Packet) := []
  att : List AttEntry := []
  /-- responses that matched no open entry (R100). -/
  late : Nat := 0
  /-- requests open at this home that entered by a port without an agent: agent, tag and that port (R98). -/
  entered : List (AgentId × Tag × Nat) := []
  /-- packets delivered to this switch's own units, oldest first. -/
  inbox : List Packet := []
  /-- packets formed by this switch's own units that the switch core has not routed yet, oldest first. -/
  outbox : List Packet := []
  /-- packets that wait for a route (R427), each with where it entered. -/
  unrouted : List (Option Origin × Packet) := []
  /-- number of the next packet that enters the packet buffer. -/
  nextOrigin : Nat := 0
  /-- the port after which credits of the request channels are returned next, and the ports that got some in this tick (R98). -/
  turn : Nat := 0
  returned : Nat := 0
  /-- flush notices this switch built, with the time, kept to be sent again (R74), and the next notice tag. -/
  notices : List (Nat × Packet) := []
  noticeTag : Tag := 0
  /-- packets that name an unconfigured group, formed by this switch (R69), and packets for agents that
  attach nowhere here, discarded (R357). -/
  groupMiss : Nat := 0
  agentMiss : Nat := 0
  deriving DecidableEq, Repr

/-! ### The home: directory, trackers, memory -/

/-- The state of a directory entry (Table 5-2); a line without an entry is in I. -/
inductive DirSt where
  | shared | broadcast | unique
  deriving DecidableEq, Repr

/-- A directory entry (Table 5-2), keyed by the line (GFA divided by 64). -/
structure DirEntry where
  line : Nat
  st : DirSt
  /-- a transaction holds the line (R118). -/
  busy : Bool := false
  /-- new sharers wait (R119). -/
  promoted : Bool := false
  /-- ptr0 to ptr3: the sharers in S, the owner in U, none in SB. -/
  ptrs : List AgentId
  /-- way of its backing-store set and recency (R107, R108). -/
  way : Nat := 0
  lru : Nat := 0
  deriving DecidableEq, Repr

/-- The sync operations of Table 6-10. -/
inductive SyncOp where
  | ld | st | add | cas | waitGe | waitNe | acq | arrive
  deriving DecidableEq, Repr

/-- What a request asks of the home (Tables 4-3, 5-3, 6-10). -/
inductive Op where
  | ld (v : Bool)
  | ldSnap (handle : BitVec 16)
  | rdS
  | rdU
  | upg
  | st (data : List Byte)
  | amo (aop : BitVec 4) (a : Word)
  | cas (compare swap : BitVec 128)
  /-- a sync operation (Table 6-10): its operand, the swap value of SYNC_CAS, the timeout in ns. -/
  | sync (k : SyncOp) (a b : Word) (timeout : Nat)
  deriving DecidableEq, Repr

/-- A snoop's kind (Table 5-3). -/
inductive Snoop where
  | inv | shr | peek
  deriving DecidableEq, Repr

/-- Why a line is recalled (R114). -/
inductive Recall where
  | victim | revocation | domainChange | own
  deriving DecidableEq, Repr

/-- A snoop under way on a line (R114, R118, R121). -/
structure Txn where
  line : Nat
  kind : Snoop
  tag : Tag
  /-- agents whose answer is awaited. -/
  awaited : List AgentId
  /-- the request that caused it; none for a recall. -/
  cause : Option (Req × Op)
  recallFor : Option Recall := none
  /-- the data came by a write-back that crossed (R121). -/
  supplied : Bool := false
  /-- the owner keeps a shared copy: it answered SR_DATA or SR_CLEAN to SNP_SHR. -/
  ownerStays : Bool := false
  /-- multicast group, when the snoop was multicast (R110). -/
  group : Option Nat := none
  /-- the agent word 3 excludes (R110). -/
  exclude : Option AgentId := none
  /-- latest send (R124). -/
  sentAt : Nat
  /-- agents that a unicast snoop of it went to, each with its latest send (R118, R122). -/
  uni : List (AgentId × Nat) := []
  /-- modified data that an answer brought, written before the snoop completes (R114). -/
  data : Option (List Byte) := none
  /-- the request that a victim's recall makes room for (R107). -/
  madeFor : Option (AgentId × Tag) := none
  /-- a sharer was granted while the write was pending (R118). -/
  granted : Bool := false
  deriving DecidableEq, Repr

/-- A request that waits at its home slice, in arrival order (R87, R114, R118). -/
structure Waiting where
  req : Req
  op : Op
  since : Nat
  deriving DecidableEq, Repr

/-- A tracker entry at the home (R98), and the deliveries it answers (Table 4-9). -/
structure HomeEntry where
  req : Req
  opcode : BitVec 8
  deliveries : Nat := 1
  arrived : Nat
  deriving DecidableEq, Repr

/-- A replay log entry (R104). -/
structure ReplayEntry where
  agent : AgentId
  tag : Tag
  epoch : Epoch
  gen : Gen
  room : RoomId
  resp : Packet
  /-- end of the dedupe window. -/
  until_ : Nat
  deriving DecidableEq, Repr

/-- A lease (R123). -/
structure Lease where
  agent : AgentId
  until_ : Nat
  deriving DecidableEq, Repr

/-- The mark of a stored line (R182). -/
inductive Mark where
  | poisoned | ownerLost
  deriving DecidableEq, Repr

/-- Directory slices, home trackers, replay log and leases (chapters 4 and 5). -/
structure Dir where
  entries : List DirEntry := []
  txns : List Txn := []
  waiting : List Waiting := []
  /-- write-backs that wait for the move of their tile to settle (R161). -/
  heldWb : List (Req × List Byte) := []
  /-- lines to be recalled once no transaction holds them and their slice has room (R114, R118). -/
  recalls : List (Nat × Recall) := []
  trk : List HomeEntry := []
  replay : List ReplayEntry := []
  leases : List Lease := []
  /-- lost agents, t_L, and the lines each held then (R125, R126). -/
  lost : List (AgentId × Nat × List Nat) := []
  nextSnoop : Tag := 0
  /-- snoop tags that rest until a time (R112). -/
  restTags : List (Tag × Nat) := []
  /-- `DIR.USE` [31:0], `DIR.LOST` (Table 19-8). -/
  victims : Nat := 0
  lostCount : Nat := 0
  lateLost : Nat := 0
  /-- answers discarded and counted (R110, R122). -/
  strayAnswers : Nat := 0
  deriving DecidableEq, Repr

/-- The pool's data at this home: bytes by GFA, and the marks of lines (GFA divided by 64). A byte that is
not listed reads zero (R40). -/
structure Pool where
  mem : List Host.Cell := []
  marks : List (Nat × Mark) := []
  /-- stored units whose cells no longer hold what was written to them, and corrections counted (R181, R182). -/
  upsets : List Upset := []
  corrected : Nat := 0
  deriving DecidableEq, Repr

/-! ### The switch's own memory requests -/

/-- What an own memory request serves (R465). -/
inductive OwnFor where
  /-- the reads and writes of a descriptor's work, by its ledger entry. -/
  | work (e : Nat)
  /-- a core's transfer (R231). -/
  | transfer (c : CoreId) (id : Nat)
  /-- the descriptor slots of a fabric ring (R204). -/
  | fetch (ring : BitVec 12)
  /-- the completion and progress records of a fabric ring (R208). -/
  | record (ring : BitVec 12)
  /-- completion, notify and go sync operations (R151, R212). -/
  | notify
  /-- the check of the witness (R355). -/
  | twin
  /-- the claim of the witness (R355). -/
  | claim
  /-- a pass of a porter over a tile (R161). -/
  | porter (p : Nat)
  /-- a write of the mirror (R346): its area, as in `Out.mirror`, and its index there. -/
  | mirror (area index : Nat)
  deriving DecidableEq, Repr

/-- A memory request of the switch's own agent (R97, R465): what it serves and asks; and, once it has a slot of its engine,
its tag, gen, epoch and latest issue. -/
structure OwnReq where
  /-- order of asking. -/
  n : Nat
  who : OwnFor
  engine : Nat
  op : Op
  gfa : Word
  nb : BitVec 7
  room : RoomId
  ocls : BitVec 2 := 0
  wcls : BitVec 2 := 0
  tag : Tag := 0
  gen : Gen := 0
  epoch : Epoch := 0
  sentAt : Nat := 0
  /-- a flush notice named it: it goes out again once every earlier request of its flow is done (R75). -/
  flushed : Bool := false
  deriving DecidableEq, Repr

/-- An answer to an own request that its unit has not used yet. -/
structure OwnGot where
  who : OwnFor
  isRead : Bool
  /-- read by LD_SNAP. -/
  snap : Bool
  gfa : Word
  status : BitVec 8
  data : List Byte
  /-- when it came. -/
  at_ : Nat
  deriving DecidableEq, Repr

/-- The own memory requests of this switch (R465). -/
structure Own where
  /-- requests that wait for a slot or for their flow, in order of asking (R75, R98). -/
  asks : List OwnReq := []
  /-- requests outstanding, in order of asking. -/
  sent : List OwnReq := []
  got : List OwnGot := []
  /-- last gen used on each tag (R103). -/
  gens : List (Tag × Gen) := []
  /-- newest epoch that a response has brought, by room (R33). -/
  epochs : List (RoomId × Epoch) := []
  next : Nat := 0
  /-- lines whose answers the work in progress lacks; none between commands. -/
  need : List Nat := []
  deriving DecidableEq, Repr

/-! ### Extents, tiles, snapshots -/

/-- The state of an extent (R25); an extent that is not listed is Free. -/
inductive ExtSt where
  | bound | draining
  deriving DecidableEq, Repr

/-- An extent that is not Free, keyed by its GFA divided by 2 MiB (Table 2-3, R42). -/
structure Extent where
  key : Nat
  st : ExtSt := .bound
  room : RoomId
  domain : Byte
  /-- survival: 0 transient, 1 durable, 2 package (Table 7-2). -/
  survival : Nat
  lineAddressed : Bool
  pin : Bool
  revert : Bool
  /-- t_D and the drain count then (R41, R42). -/
  tD : Nat := 0
  drain0 : Nat := 0
  /-- counted requests and descriptors that are not done (R42). -/
  reqs : List (AgentId × Tag) := []
  descs : List Nat := []
  /-- package slot the extent is sealed to (R385). -/
  slot : Option Nat := none
  deriving DecidableEq, Repr

/-- Where a tile resides: tier, controller or tray attachment, and form on a tray (R152, R160). -/
structure Residence where
  tier : Nat
  unit : Nat
  lineAddressed : Bool
  deriving DecidableEq, Repr

/-- The image that a tile-compressed tile is stored as, but for what follows from the tile's contents and marks (Table 8-5): its form,
salt, copy of the layout descriptor (R177), and the frequency table that it carries. -/
structure Image where
  coded : Bool
  salt : BitVec 128
  layout : BitVec 128
  table : List Byte
  deriving DecidableEq, Repr

/-- The migration state of a tile (Table 7-4). -/
inductive Mig where
  | settled | booked | moving | closing | committing | disputed
  deriving DecidableEq, Repr

/-- A tile record of the extent map, keyed by its GFA divided by 64 KiB. -/
structure Tile where
  key : Nat
  res : Residence
  /-- ownership epoch e (R161). -/
  e : BitVec 16 := 0
  mig : Mig := .settled
  /-- destination of the move under way. -/
  dest : Option Residence := none
  porter : Option Nat := none
  /-- dirty map of the move (R161). -/
  dirty : List Nat := []
  /-- when Committing began (R165), and the tag of the map messages sent (R163). -/
  since : Nat := 0
  tag : Option Tag := none
  /-- the ledger entry whose work the move is. -/
  work : Option Nat := none
  /-- layout descriptor, Table 8-1, 16 B little-endian. -/
  layout : BitVec 128 := 0
  /-- GFA of the frequency table (Table 8-3). -/
  table : Word := 0
  /-- the stored image of a tile-compressed tile, once it was encoded (R185). -/
  image : Option Image := none
  /-- index in the package that the tile was placed from (R383). -/
  sealedIdx : Option Nat := none
  /-- the residence is lost (R171). -/
  lost : Bool := false
  /-- Unrecalled (R359). -/
  unrecalled : Bool := false
  /-- access count of a unified room (R158). -/
  count : Nat := 0
  /-- the head's unwritten lines are still to be copied from the retained tile (R140). -/
  cow : Bool := false
  /-- a head placed by rule 1 or 2 of R141: where the quota is spent it is overdraft. -/
  away : Bool := false
  deriving DecidableEq, Repr

/-- What the map holder recorded of a commit (R162, R165, R166). -/
structure MapRec where
  /-- tile: GFA divided by 64 KiB. -/
  tile : Nat
  epoch : BitVec 16
  recorded : Bool
  entry : Word
  deriving DecidableEq, Repr

/-- A snapshot version (R135). -/
structure Version where
  cut : BitVec 32
  tC : Nat
  /-- extents covered (keys). -/
  exts : List Nat
  partialV : Bool := false
  deriving DecidableEq, Repr

/-- A tile retained for a version (R140): its contents at the cut. -/
structure Retained where
  cut : BitVec 32
  tile : Nat
  res : Residence
  cells : List Host.Cell
  marks : List (Nat × Mark)
  image : Option Image := none
  sealedIdx : Option Nat := none
  /-- its space was released (R141 rules 3 and 4). -/
  released : Bool := false
  /-- its own move, as a tile's (R160, R161); it shares the ownership epoch of its tile. -/
  mig : Mig := .settled
  dest : Option Residence := none
  porter : Option Nat := none
  since : Nat := 0
  tag : Option Tag := none
  work : Option Nat := none
  /-- its residence is lost (R171). -/
  lost : Bool := false
  deriving DecidableEq, Repr

/-- An open snapshot handle (R142). -/
structure Handle where
  h : BitVec 16
  room : RoomId
  cut : BitVec 32
  exts : List Nat
  until_ : Nat
  deriving DecidableEq, Repr

/-- A layer of a weight stream (Table 7-11), and where it stands. -/
structure Layer where
  first : Word
  count : Nat
  need : Nat
  release : Nat
  /-- it is skipped: not all its tiles are transient (R173). -/
  skipped : Bool
  /-- passes for which it was moved in, and in which it was released. -/
  ins : Nat := 0
  rel : Nat := 0
  deriving DecidableEq, Repr

/-- A WEIGHT_STREAM under way (R173 to R176): its entry, its layers, the window, and the tiles whose move in or out could not be
booked yet. -/
structure Stream where
  e : Nat
  room : RoomId
  layers : List Layer
  window : Nat
  passes : Nat
  schedule : Bool
  obj : Nat
  start : Nat
  period : Nat
  /-- tile, and whether it moves in. -/
  todo : List (Nat × Bool) := []
  deriving DecidableEq, Repr

/-- A tray attachment (Table 19-7). -/
structure Tray where
  n : Nat
  present : Bool
  lost : Bool
  timesLost : Nat
  t1 : Option TierDecl
  t2 : Option TierDecl
  deriving DecidableEq, Repr

/-- Extent map, version manager and trays (chapters 2, 6 and 7). -/
structure Maps where
  exts : List Extent := []
  tiles : List Tile := []
  recs : List MapRec := []
  versions : List Version := []
  retained : List Retained := []
  handles : List Handle := []
  /-- handle numbers that rest until a time (R143). -/
  restHandles : List (BitVec 16 × Nat) := []
  nextCut : BitVec 32 := 1
  /-- `DIR.SNAP_STAT`: head tiles placed away, retained tiles released (R141). -/
  placedAway : Nat := 0
  released : Nat := 0
  trays : List Tray := []
  streams : List Stream := []
  /-- evacuations under way, oldest first: controller, tiles that it held at the start (R172). -/
  evac : List (Nat × Nat) := []
  /-- controllers that returned to service with fewer channels than 8: controller, channels in service (R172). -/
  inService : List (Nat × List Nat) := []
  deriving DecidableEq, Repr

/-! ### Sync objects -/

/-- A bound sync object (R145, R146). -/
structure SyncObj where
  n : Nat
  room : RoomId
  domain : Byte
  value : Word
  deriving DecidableEq, Repr

/-- What a sync waiter waits for (Table 6-10). -/
inductive SyncWait where
  | ge | ne | acq
  /-- the generation that must change, and the value before the arrival. -/
  | arrive (g : BitVec 32) (old : Word)
  deriving DecidableEq, Repr

/-- A waiting sync operation (R149), in arrival order. -/
structure SyncWaiter where
  n : Nat
  req : Req
  kind : SyncWait
  a : Word
  until_ : Nat
  deriving DecidableEq, Repr

/-- The sync-object islands. -/
structure Sync where
  objs : List SyncObj := []
  waiters : List SyncWaiter := []
  deriving DecidableEq, Repr

/-! ### Rooms -/

/-- A committing COMPOSE (Table 2-7). -/
structure Commit where
  /-- its ledger entry; none at a member switch. -/
  e : Option Nat
  epoch : Epoch
  slices : List Slice
  paths : List PathSet
  /-- step reached: 1 accepted, 3 current. -/
  step : Nat := 1
  acked : List SwitchId := []
  twins : List (SwitchId × SwitchId) := []
  drained : List SwitchId := []
  /-- the slices staged for it, put back if a member refuses it (R30). -/
  backup : List (Slice × Bool) := []
  /-- when the step was reached. -/
  at_ : Nat := 0
  deriving DecidableEq, Repr

/-- A room as this switch knows it (R28, R92, R157, R445). A room that is not listed has never been composed. -/
structure Room where
  id : RoomId
  holder : SwitchId
  /-- current epoch; older live epoch. -/
  current : Epoch := 0
  older : Option Epoch := none
  cur : List Slice := []
  old : List Slice := []
  /-- slices staged since the last commit: (slice, release) (R31). -/
  staged : List (Slice × Bool) := []
  commit : Option Commit := none
  /-- a commit that waits for the older epoch to retire (R34). -/
  waiting : Option Commit := none
  /-- when the current epoch was declared (step 3). -/
  currentAt : Nat := 0
  /-- this member has reported drain of the older epoch. -/
  drained : Bool := false
  /-- ROOM_LIMIT: Gb/s, KiB, Gb/s with 0 no limit (R92). -/
  rate : Nat := 1
  burst : Nat := 4
  beRate : Nat := 0
  /-- ROOM_TIER (Table 7-3): false is explicit. -/
  unified : Bool := false
  thr : Nat := 1
  interval : Nat := 100
  hi0 : Nat := 100
  lo0 : Nat := 10
  hi1 : Nat := 100
  lo1 : Nat := 10
  /-- Table 19-18 counters: late moves, requests demoted, tiles stored raw, promise misses, refusals. -/
  lateMoves : Nat := 0
  demoted : Nat := 0
  raw : Nat := 0
  misses : Nat := 0
  refused : Nat := 0
  deriving DecidableEq, Repr

/-- A sharing domain (R26). -/
structure Domain where
  room : RoomId
  idx : Byte
  agents : List AgentId
  deriving DecidableEq, Repr

/-- A change of a sharing domain that waits for recalls (R24, R26). -/
structure DomChange where
  /-- the ledger entry it belongs to, if any, and whether that is a DOMAIN_SET. -/
  e : Option Nat
  isSet : Bool
  room : RoomId
  idx : Byte
  agents : List AgentId
  skipped : Nat
  deriving DecidableEq, Repr

/-- Rooms and sharing domains. -/
structure Rooms where
  rooms : List Room := []
  /-- rooms that have been freed: their counters of Table 19-18 stand until the room is composed again (R445). -/
  freed : List Room := []
  domains : List Domain := []
  changes : List DomChange := []
  deriving DecidableEq, Repr

/-! ### Rings and the ledger -/

/-- A ring's state (chapter 9, Tables 9-11 and 15-4). A ring that is not listed has never been set. -/
structure Ring where
  id : BitVec 12
  enabled : Bool := false
  fabric : Bool := false
  room : RoomId := 0
  fn : Nat := 0
  d : Nat := 6
  c : Nat := 6
  dbase : Word := 0
  cbase : Word := 0
  /-- next sequence to fetch, tail, completion records written, completion head (R202, R204). -/
  h : BitVec 32 := 0
  tail : BitVec 32 := 0
  nw : BitVec 32 := 0
  head : BitVec 32 := 0
  /-- progress interval in us. -/
  pint : Nat := 1000
  vector : Nat := 0
  dbObj : Nat := 0
  notifyObj : Option Nat := none
  /-- `RING.CLAMP` (Table 9-12). -/
  clampOp : BitVec 12 := 0
  clampByte : Nat := 0
  clamps : Nat := 0
  /-- `RING.EVENTS`: doorbells ignored or clamped, stale-slot stops, progress records skipped. -/
  dbIgnored : Nat := 0
  stale : Nat := 0
  skipped : Nat := 0
  /-- when the front end stopped on a stale slot (R205). -/
  staleAt : Option Nat := none
  /-- a disable under way: action and ledger entry (R197). -/
  disabling : Option (Nat × Nat) := none
  /-- n_w and T of the last mirrored ring record (R347). -/
  nwMirrored : BitVec 32 := 0
  tailMirrored : BitVec 32 := 0
  deriving DecidableEq, Repr

/-- The fields a final record carries (Table 9-8). -/
structure Final where
  status : BitVec 8
  byte5 : BitVec 8 := 0
  progress : Nat := 10000
  r16 : Word := 0
  r24 : Word := 0
  deriving DecidableEq, Repr

/-- Where a ledger entry stands: `mirroring` before acceptance, then the states of Table 15-2. -/
inductive EntrySt where
  | mirroring | accepted | running | resultHeld
  deriving DecidableEq, Repr

/-- A ledger entry (Table 15-2); free entries are not listed. -/
structure Entry where
  /-- entry number, 0 to 262,143. -/
  n : Nat
  /-- the descriptor after every clamp, 64 B little-endian. -/
  desc : BitVec 512
  ring : BitVec 12
  st : EntrySt := .mirroring
  mgmt : Bool := true
  fn : Nat := 0
  epoch : Epoch := 0
  tA : Nat
  promise : Nat
  /-- fabric time of the fetch (R340). -/
  fetched : Nat := 0
  checkpoint : Word := 0
  progress : Nat := 0
  /-- written during a replay; a rerun-unsafe run has started. -/
  replayed : Bool := false
  rerunStarted : Bool := false
  serial : BitVec 32 := 0
  /-- the work has started (R207). -/
  started : Bool := false
  /-- when the last progress record was due (R208). -/
  progAt : Nat := 0
  /-- the result, once the work is done. -/
  result : Option Final := none
  /-- fabric time of completion, as the final record will give it (R212). -/
  doneAt : Nat := 0
  /-- the final record has been written and its acknowledgement is awaited. -/
  recorded : Bool := false
  /-- fields of this descriptor clamped at its test (R213). -/
  clamps : Nat := 0
  /-- of a management function ring of the lost partner (R360). -/
  adopted : Bool := false
  /-- the share of another lead's run that this switch has reserved (R264): it belongs to no ring. -/
  share : Bool := false
  /-- position reached, in the units of the opcode's progress position. -/
  position : Word := 0
  /-- the promise miss has been counted (R329). -/
  missed : Bool := false
  /-- tiles, passes or items still to settle before the work is done, and those done and skipped. -/
  pendingWork : Nat := 0
  doneCount : Nat := 0
  skipCount : Nat := 0
  /-- drain count at t_D of the extents that an EXTENT_REVOKE names (R45). -/
  drain0 : Nat := 0
  /-- counters of work that is done in chunks (R36), as its opcode uses them. -/
  tally : List Nat := []
  /-- when the entry was last mirrored (R346). -/
  writtenAt : Nat := 0
  /-- clusters that the descriptor is to hold or holds (R225, R255, R275), or engines (R308); and whether what it names has been
  read for its test (R4). -/
  claims : List Nat := []
  tested : Bool := false
  deriving DecidableEq, Repr

/-- The ledger, the rings and the mirror (chapters 9 and 15). -/
structure Ledger where
  rings : List Ring := []
  entries : List Entry := []
  /-- last ring served at each front end (R206). -/
  lastServed0 : BitVec 12 := 0
  lastServed1 : BitVec 12 := 0
  /-- mirror target in use: 0 none, 1 the twin, 2 the ledger extent (`LEDG.STAT`). -/
  target : Nat := 0
  headerSeen : Nat := 0
  /-- state of the mirror header (Table 15-3). -/
  headerState : Nat := 0
  mirrorSerial : BitVec 32 := 0
  /-- the mirror has been read since the last reset (R423). -/
  mirrorRead : Bool := false
  /-- map journal records, oldest first (R349), and the bytes of the journal that are in use. -/
  journal : List (BitVec 512) := []
  journalUsed : Nat := 0
  /-- map changes that wait on a full journal: ledger entries. -/
  journalWait : List Nat := []
  /-- commits, cuts and image activations that the journal records as made, with their result: ring, sequence, bytes 16 to 31
  of the record (Table 15-5, R392). -/
  applied : List (BitVec 12 × BitVec 32 × Word × Word) := []
  deriving DecidableEq, Repr

/-! ### Caravans and cores -/

/-- An exact accumulator's state (Table 11-2). -/
structure Acc where
  value : BitVec 320 := 0
  count : BitVec 64 := 0
  mode : Nat := 0
  nan : Bool := false
  pinf : Bool := false
  ninf : Bool := false
  nz : Bool := false
  poison : Bool := false
  limit : Bool := false
  mismatch : Bool := false
  deriving DecidableEq, Repr

/-- What a core is doing. -/
inductive CoreSt where
  /-- clock-gated: in no run, or done for the run (R224). -/
  | idle
  | running
  /-- waits in RECV on a queue for register d (R242). -/
  | recvWait (queue : Nat) (d : Reg)
  /-- waits in MWAIT until at most n transfers are outstanding (R232). -/
  | mwait (n : Nat)
  /-- waits in FENCE (R232). -/
  | fence
  /-- waits in MSYNC for the response of transfer `id`, to be written to register d. -/
  | msync (id : Nat) (d : Reg)
  deriving DecidableEq, Repr

/-- A transfer of a core (R231): MGET, MPUT or MSYNC. -/
structure Transfer where
  id : Nat
  isGet : Bool
  isSync : Bool
  localAddr : BitVec 32
  gfa : Word
  bytes : Nat
  volatile : Bool
  ocls : BitVec 2
  /-- operation code and operand of an MSYNC; bytes that an MPUT moves. -/
  syncOp : Nat := 0
  operand : Word := 0
  data : List Byte := []
  deriving DecidableEq, Repr

/-- A core (Table 10-1, Table 10-3). Default values are those at the start of a run (R215). -/
structure Core where
  id : CoreId
  s : Vector Word 32 := Vector.replicate 32 0
  v : Vector (BitVec 256) 32 := Vector.replicate 32 0
  p : Vector Word 8 := Vector.replicate 8 0
  xa : Word := 0
  xb : Word := 0
  acc0 : Acc := {}
  acc1 : Acc := {}
  pc : BitVec 16 := 0
  /-- flags [6:0] of Table 10-3. -/
  flags : BitVec 7 := 0
  st : CoreSt := .idle
  /-- label of the last input-0 record, and records sent since (R221); an input-0 record has been received. -/
  got : Bool := false
  n : BitVec 32 := 0
  k : Nat := 0
  /-- k of the label of the last input-0 record. -/
  inK : Nat := 0
  /-- buffers held: handles (R242). -/
  held : List Word := []
  transfers : List Transfer := []
  nextTransfer : Nat := 0
  deriving DecidableEq, Repr

/-- A record in a queue of an edge (R220): label, handle. -/
structure Rec where
  n : BitVec 32
  k : Nat
  handle : Word
  deriving DecidableEq, Repr

/-- A stage of an open caravan (R220, Table 10-6). -/
structure Stage where
  builtin : Option Nat
  clusters : List Nat
  usedCores : Nat
  codeLen : Nat
  dataInit : List Byte
  code : List Byte
  localNeed : Nat
  inputs : Nat
  outputs : Nat
  entry : Nat
  cRec : Nat
  cByte : Nat
  /-- declared output-to-input ratio, 16.16 fixed point. -/
  ratio : Nat
  rerunUnsafe : Bool
  depth : Nat
  prm : List Word
  /-- cores of the stage that have executed DONE in the run. -/
  doneCores : List CoreId := []
  closed : Bool := false
  deriving DecidableEq, Repr

/-- An edge of a caravan (Table 10-7). Output 0 of stage s feeds input 0 of stage s + 1. -/
structure Edge where
  fromStage : Nat
  fromOut : Nat
  toStage : Nat
  toIn : Nat
  deriving DecidableEq, Repr

/-- A queue: the records waiting on an input of a core or cluster of a stage. -/
structure InQueue where
  stage : Nat
  input : Nat
  cluster : Nat
  /-- none for input 0, the receiving core for inputs 1 to 3 (R222). -/
  core : Option Nat
  recs : List Rec
  deriving DecidableEq, Repr

/-- An input-0 record that was dispatched to a cluster and whose outputs are not all downstream yet (R226). -/
structure HeldRec where
  stage : Nat
  cluster : Nat
  n : BitVec 32
  k : Nat
  poison : Bool
  data : List Byte
  deriving DecidableEq, Repr

/-- A run of a caravan (R238). -/
structure Run where
  /-- its ledger entry. -/
  e : Nat
  recSize : Nat
  src : Word
  srcLen : Nat
  sink : Word
  sinkCap : Nat
  /-- next record of the source to deliver, and whether end records were given to stage 0. -/
  nextRec : Nat := 0
  ended : Bool := false
  /-- records at the sink: label, poison, bytes. -/
  sinkRecs : List (BitVec 32 × Nat × Bool × List Byte) := []
  overruns : Nat := 0
  /-- worst status of the run's own reads and writes. -/
  status : BitVec 8 := 0
  /-- records that run again after a retirement: stage, n, and the labels k below which were sent already (R226). -/
  reruns : List (Nat × BitVec 32 × Nat) := []
  /-- input-0 records held until their outputs are downstream (R226). -/
  held : List HeldRec := []
  deriving DecidableEq, Repr

/-- A record buffer of a cluster store (R220, R223): an input buffer of a stage, or (input 4 to 7) an output buffer that
a core holds, with the receiving cluster that it counts against. -/
structure Buf where
  addr : Nat
  cluster : Nat
  stage : Nat
  input : Nat
  dest : Nat
  /-- cores that must still free it (R222). -/
  refs : Nat
  deriving DecidableEq, Repr

/-- An open caravan (R235 to R239). -/
structure Caravan where
  id : Nat
  room : RoomId
  stages : List Stage
  edges : List Edge
  run : Option Run := none
  queues : List InQueue := []
  bufs : List Buf := []
  /-- a close under way: its ledger entry (R239). -/
  closing : Option Nat := none
  deriving DecidableEq, Repr

/-- The caravan engine (chapter 10). -/
structure Engine where
  caravans : List Caravan := []
  cores : List Core := []
  /-- local stores and cluster stores: key ((cluster * 33 + core) * 2^22 + offset), core 32 the cluster store. -/
  stores : List Host.Cell := []
  /-- line buffers (R232): cluster, line, data. -/
  lineBuf : List (Nat × Nat × List Byte) := []
  /-- clocks booked: cluster, MHz, ledger entry; and clocks as they are: cluster, MHz, others at 800 (R11, R336). -/
  booked : List (Nat × Nat × Nat) := []
  clocks : List (Nat × Nat) := []
  deriving DecidableEq, Repr

/-! ### Collectives -/

/-- A chunk's state at a leaf (R261, R267). -/
structure LeafChunk where
  k : Nat
  /-- (member, first element, elements) received. -/
  seen : List (Nat × Nat × Nat) := []
  accs : List Acc := []
  /-- contributions of all-gather and broadcast: first element, elements, bytes. -/
  pieces : List (Nat × Nat × List Byte) := []
  poison : Bool := false
  sent : Bool := false
  acked : Bool := false
  deriving DecidableEq, Repr

/-- A chunk's state at its root (R261, R267). -/
structure RootChunk where
  k : Nat
  /-- (leaf, first element) received. -/
  leaves : List (SwitchId × Nat) := []
  accs : List Acc := []
  pieces : List (Nat × Nat × List Byte) := []
  poison : Bool := false
  complete : Bool := false
  /-- what was sent: member, first element, bytes. -/
  result : List (Nat × Nat × List Byte) := []
  /-- kept until W after its result was sent (R267). -/
  until_ : Nat := 0
  deriving DecidableEq, Repr

/-- A round under way (R263, R264). -/
structure Round where
  params : CollParams
  accepted : Bool := false
  /-- the round has ended here (R261, R268). -/
  ended : Bool := false
  /-- at the lead: its ledger entry; switches that have reserved, switches that refused, a refusal's reason, and the latest
  of their earliest deadlines. -/
  e : Option Nat := none
  reserved : List SwitchId := []
  refusers : List SwitchId := []
  refusal : Option (BitVec 7) := none
  latest : Nat := 0
  /-- at another switch: the ledger entry of its share (R264). -/
  share : Option Nat := none
  kRun : Nat
  leaf : List LeafChunk := []
  root : List RootChunk := []
  /-- chunks completed here as a root, and those of them with poison. -/
  rootDone : Nat := 0
  rootPoisoned : Nat := 0
  /-- lowest chunk not yet acknowledged, and the mark last told to members (R262). -/
  mark : Nat := 0
  markTold : Nat := 0
  /-- at the lead: (root's agent, chunks completed, chunks poisoned) (R268). -/
  reports : List (AgentId × Nat × Nat) := []
  deriving DecidableEq, Repr

/-- An open collective context (R254, Table 11-3). -/
structure Context where
  lead : SwitchId
  ctx : BitVec 10
  room : RoomId
  members : List (AgentId × Nat)
  total : Nat
  nSwitches : Nat
  roots : List SwitchId
  type : BitVec 4
  chunkBytes : Nat
  k : Nat
  go : Option Nat
  clusters : List Nat
  coded : Bool
  resultTable : Nat
  /-- GFA of the table set, and the tables read from it at the open (R186). -/
  tables : Word
  tableBytes : List Byte := []
  group : Nat
  rounds : Nat := 0
  /-- the round that executes; the later ones that are reserved or being reserved, in order; and the round before (R263,
  R264). -/
  round : Option Round := none
  waiting : List Round := []
  past : Option Round := none
  /-- contributions that arrived before their round began here, and partials that did, each with its leaf (R261). -/
  early : List CollPkt := []
  earlyParts : List (CollPkt × SwitchId) := []
  closing : Option Nat := none
  duplicates : Nat := 0
  lateData : Nat := 0
  deriving DecidableEq, Repr

/-- Collective state. -/
structure Coll where
  ctxs : List Context := []
  /-- packets that named no open context or no member (R258). -/
  discarded : Nat := 0
  deriving DecidableEq, Repr

/-! ### Filter units -/

/-- The contents of an array entry: key, mask, priority, result (R296). -/
structure ArrRow where
  key : BitVec 256
  mask : BitVec 256
  prio : BitVec 16
  result : Word
  deriving DecidableEq, Repr

/-- An entry of a table: its copy in ECC SRAM and its match row (R296). -/
structure ArrEntry where
  slot : Nat
  copy : ArrRow
  row : ArrRow
  /-- the copy has an uncorrectable ECC error (R298). -/
  eccBad : Bool := false
  deriving DecidableEq, Repr

/-- A room's table in an array (R293). -/
structure Table where
  room : RoomId
  array : Nat
  first : Nat
  count : Nat
  ternary : Bool
  /-- entries in slot order. -/
  entries : List ArrEntry := []
  deriving DecidableEq, Repr

/-- A part of a loaded automaton (Table 13-7). -/
structure AutoPart where
  classMap : List Byte
  start : Nat
  classes : Nat
  states : List Word
  accepts : List Word
  pool : List Byte
  deriving DecidableEq, Repr

/-- A loaded automaton (R308). -/
structure Automaton where
  id : Nat
  room : RoomId
  span : Nat
  parts : List AutoPart
  replicas : Nat
  engines : List Nat
  closing : Option Nat := none
  deriving DecidableEq, Repr

/-- Arrays and automata engines (chapter 13). -/
structure Filter where
  tables : List Table := []
  /-- engine groups held: (group, room). -/
  groups : List (Nat × RoomId) := []
  automata : List Automaton := []
  /-- bookings accepted and not in effect: (room, ledger entry) (R295). -/
  booking : List (RoomId × Nat) := []
  /-- `FILT.ARR_n`: (array, false hits, scrub rewrites). -/
  falseHits : List (Nat × Nat) := []
  rewrites : List (Nat × Nat) := []
  deriving DecidableEq, Repr

/-! ### The innkeeper, time, health, the twin, keys, management -/

/-- A booked resource (Table 14-2). -/
inductive Resource where
  | port (p : Nat) (out : Bool)
  | cluster (c : Nat)
  | hbm (c : Nat)
  | porters
  | array (a : Nat)
  | engineGroup (g : Nat)
  /-- energy of a room in mW. -/
  | energy (r : RoomId)
  /-- heat: booked power of a die in mW. -/
  | heat (die : Nat)
  deriving DecidableEq, Repr

/-- A booking of the calendar: amount per 1 us bucket from `from_` to before `to_`. -/
structure Booking where
  e : Nat
  res : Resource
  amount : Nat
  from_ : Nat
  to_ : Nat
  /-- an elastic floor's booking: it stands until the work is done (R327). -/
  floor : Bool
  deriving DecidableEq, Repr

/-- The innkeeper (chapter 14). -/
structure Innk where
  /-- live cap values in W: POWER_CAP and the board management controller (R332, R439). -/
  capSw : Nat := 1250
  capBmc : Nat := 1250
  /-- measured fixed power of the last 1 ms, newest first, in mW (R330). -/
  samples : List Nat := []
  /-- measured draw of the last 1 ms, newest first, in mW. -/
  draws : List Nat := []
  /-- measured draw averaged over the last 1 ms, in mW. -/
  drawMw : Nat := 0
  /-- when that draw was measured. -/
  drawAt : Nat := 0
  bookings : List Booking := []
  /-- hottest reading of each die, 0.25 C units: CD0-3, MD0-1, ID0-1. -/
  temps : List Nat := [0, 0, 0, 0, 0, 0, 0, 0]
  /-- measured power of each die, mW. -/
  dieMw : List Nat := [0, 0, 0, 0, 0, 0, 0, 0]
  /-- dies in the 105 C condition (R338). -/
  hot : List Nat := []
  /-- energy handed out for the present bucket, by room, in mW (R336). -/
  given : List (RoomId × Nat) := []
  capOverruns : Nat := 0
  hotEntries : Nat := 0
  refused : Nat := 0
  deriving DecidableEq, Repr

/-- The package time reference (chapter 14, Table 19-14). -/
structure TimeRef where
  /-- fabric time in ns, modulo 2^64 (R316). -/
  now : Nat := 0
  /-- largest value the islands' copies have followed: they never decrease (R13). -/
  copy : Nat := 0
  /-- lock state: 0 locked, 1 acquiring, 2 holdover, 3 free-running. -/
  lock : Nat := 3
  /-- source in use: 0 PTP, 1 1PPS, 2 BFP, 3 lane reference clock. -/
  source : Nat := 3
  steps : Nat := 0
  /-- estimated offset from the source, ns. -/
  offset : Int := 0
  /-- offset still to be removed by slewing (R320). -/
  slew : Int := 0
  /-- the one step allowed before the first acceptance has been taken (R320). -/
  stepped : Bool := false
  /-- a descriptor has been accepted since the last reset. -/
  accepted : Bool := false
  /-- the neighbour followed: port and tuple (R317). -/
  follow : Option (Nat × Nat × Nat × Nat × Nat × Nat) := none
  /-- the PTP master chosen: bridge port, priority, clock class, grandmaster, steps removed (R410). -/
  ptp : Option (Nat × Nat × Nat × Nat × Nat) := none
  /-- ticks since the last one that slewed, modulo 5,000 (R320). -/
  phase : Nat := 0
  /-- when the set-up lock was taken (R317). -/
  lockedAt : Nat := 0
  /-- fabric time of the last 1PPS edge (R442). -/
  lastPps : Option Nat := none
  /-- level of the 1PPS output: high until a time (R316, R456). -/
  ppsHigh : Option Nat := none
  /-- PTP messages discarded (R410). -/
  ptpDiscards : Nat := 0
  deriving DecidableEq, Repr

/-- A fault record (Table 15-10). -/
structure FaultRec where
  kind : Nat
  severity : Nat
  serial : BitVec 32
  time : Nat
  room : RoomId := 0
  unitCode : Nat := 0
  unitIndex : Nat := 0
  status : BitVec 8 := 0
  agent : AgentId := 0
  tag : BitVec 32 := 0
  /-- bytes 32 to 63, little-endian. -/
  info : BitVec 256 := 0
  deriving DecidableEq, Repr

/-- Health states (Table 15-7). -/
inductive Health where
  | healthy | degraded | retiring | failed
  deriving DecidableEq, Repr

/-- Health, stewards, retired units and the fault log (chapter 15). -/
structure Hlth where
  state : Health := .healthy
  /-- REPLACE_REQ_N driven low (R363). -/
  replace : Bool := false
  /-- retired units: (unit code, index) (Table 15-8). -/
  retired : List (Nat × Nat) := []
  /-- steward roles (Table 1-4, `HLTH.ROLES`). DESIGN CHOICE: which steward has which role at start is Fraip's (R16); this is the
  model's list, each pair on different dies. -/
  roles : List Nat := [0, 1, 2, 3, 4, 5, 6, 8, 1, 2, 3, 4, 5, 6, 7, 8]
  /-- roles that a steward has taken in addition to its own (R16): steward, role. -/
  taken : List (Nat × Nat) := []
  /-- the fault log, oldest first (R368), the next serial and the overwrites. -/
  log : List FaultRec := []
  serial : BitVec 32 := 0
  overwritten : Nat := 0
  deriving DecidableEq, Repr

/-- The twin pair (R348, R354 to R360). -/
structure Twin where
  /-- fabric time of the partner's last heartbeat seen, when it was seen, and the heartbeats seen (`LEDG.PEER`). -/
  peerBeat : Nat := 0
  peerSeenAt : Nat := 0
  beats : Nat := 0
  /-- own heartbeat last written (R348). -/
  ownBeat : Nat := 0
  /-- when the witness was last read (R355). -/
  witnessAt : Nat := 0
  /-- the claim's t_C, once won (R355). -/
  claimed : Option Nat := none
  /-- switch IDs this switch is home for besides its own, after a takeover (R357). -/
  adopted : List SwitchId := []
  deriving DecidableEq, Repr

/-- A package slot (R384). -/
structure PkgSlot where
  slot : Nat
  key : BitVec 256
  pkgId : BitVec 128
  deriving DecidableEq, Repr

/-- The key store (chapter 16). -/
structure Keys where
  /-- storage secret and pair secret (R372). -/
  sS : Option (BitVec 256) := none
  sP : Option (BitVec 256) := none
  /-- the partner's TWIN_KEY kept: g_p, its ek_s, the ciphertext received (R373, R380). -/
  peer : Option (BitVec 32 × BitVec 12544 × BitVec 12544) := none
  /-- ek_s of the partner as its first TWIN_KEY gave it. -/
  peerEk : Option (BitVec 12544) := none
  pkgs : List PkgSlot := []
  /-- state of the random bit generator: draws made (R370). -/
  draws : Nat := 0
  /-- security fault records written (`KEYS.STAT`). -/
  secFaults : Nat := 0
  deriving DecidableEq, Repr

/-- A function mailbox (R448). -/
structure MailBox where
  f : Nat
  req : Bool := false
  rsp : Bool := false
  /-- response and its length. -/
  resp : List Byte := []
  /-- request length of `MBOX.MSG_f`, and the request buffer's bytes by offset. -/
  reqLen : Nat := 0
  request : List Host.Cell := []
  deriving DecidableEq, Repr

/-- The management port, MCTP and SPDM (chapter 17). -/
structure Mgmt where
  link : Bool := true
  /-- VF Enable and NumVFs (Table 2-6). -/
  numVfs : Nat := 0
  /-- functions with an FLR in progress (R400). -/
  flr : List Nat := []
  /-- records that wait for the link: function, address, 32 B (R400). -/
  waitRecs : List (Nat × Word × BitVec 256) := []
  boxes : List MailBox := []
  /-- mailbox requests ignored (R448). -/
  boxIgnored : Nat := 0
  /-- unacknowledged EVENT messages, oldest first, and the overwrites (R412). -/
  events : List FaultRec := []
  evOverwritten : Nat := 0
  /-- fabric time at which every SPDM request queued so far will have been answered (R395). -/
  spdmFree : Nat := 0
  /-- attestation responses signed. -/
  signed : Nat := 0
  deriving DecidableEq, Repr

/-- What leaves the switch other than as a BFP packet, oldest first. -/
inductive Out where
  /-- a completion or progress record: ring, slot address, 32 B. -/
  | record (ring : BitVec 12) (fn : Option Nat) (addr : Word) (value : BitVec 256)
  /-- an MSI-X message: function, vector. -/
  | msix (fn vector : Nat)
  /-- a write to a function's memory: function, address, bytes. -/
  | hostWrite (fn : Nat) (addr : Word) (data : List Byte)
  /-- an MCTP response or EVENT: command, instance, completion code, fields. -/
  | mctp (command instanceId code : Byte) (fields : List Byte)
  /-- an SPDM response: transport, request kind, signed with the alias key, body. -/
  | spdm (transport : Nat) (kind : SpdmKind) (signed : Bool) (body : List Byte)
  /-- a CXL answer of a flex port: port, tag, poison, data; no data in a completion. -/
  | cxl (port : Nat) (tag : Tag) (poison : Bool) (data : List Byte)
  /-- a back-invalidate snoop of a flex port: 0 Inv, 1 Data, 2 Cur; tag and offset in the range. -/
  | biSnoop (port kind : Nat) (tag : Tag) (offset : Word)
  /-- an edge on a pin: 0 PPS_OUT, 1 REPLACE_REQ_N. -/
  | pin (pin : Nat) (level : Bool)
  /-- a link control flit: port, type or message code, content, and its 448 B. -/
  | linkCtl (port : Nat) (code : Nat) (content wire : List Byte)
  /-- a data flit, an idle flit or a retry request sent on a port. -/
  | flit (port : Nat) (f : TxFlit)
  /-- a bridge frame: port, kind of Table 17-7, sequence number, acknowledgement, credit return, the packets of the frame,
  content of a control frame, and CE in the outer IP header (R72). -/
  | bridge (port kind : Nat) (seq ack : BitVec 32) (credit : Nat × Nat) (packets : List Packet) (content : List Byte) (ce : Bool)
  /-- a write of the mirror: 0 header, 1 ring record, 2 entry, 3 journal, 4 key record; index; value. -/
  | mirror (area index : Nat) (value : BitVec 1024)
  /-- a PCIe, PTP or CXL link event that the manual names without a packet of its own. -/
  | event (code arg : Nat)
  deriving DecidableEq, Repr

/-! ### The state -/

/-- The whole switch. `pending` holds the commands that wait, first in, first out; `freeCount` is the model's
own counter of free values drawn. -/
structure State where
  pending : List Instr := []
  freeCount : Nat := 0
  time : TimeRef := {}
  fuses : Fuses := {}
  boot : Boot := {}
  regs : Regs := {}
  fab : Fabric := {}
  dir : Dir := {}
  own : Own := {}
  pool : Pool := {}
  maps : Maps := {}
  sync : Sync := {}
  rooms : Rooms := {}
  ledger : Ledger := {}
  engine : Engine := {}
  coll : Coll := {}
  filt : Filter := {}
  innk : Innk := {}
  hlth : Hlth := {}
  twin : Twin := {}
  keys : Keys := {}
  mgmt : Mgmt := {}
  /-- outputs, oldest first. -/
  out : List Out := []
  deriving DecidableEq, Repr

/-- The machine right after reset: step 6 of a cold start (Table 18-3), before the set-up lock. -/
def State.reset : State := {}

end Sys2Proof.Machine
end

