-- ==== Sys2Proof/Machine/Regs.lean ====
section
/-!
DEFINITION. Machine/Regs.lean: the RWL registers of BAR0 (chapters 9, 18, 19): their reset values, the nearest legal
value of R431, the resolution at the lock of R433, and the settings that the rest of the switch reads from them.
-/

namespace Sys2Proof.Machine

/-- Replaces every element that meets `p`. -/
def mapIf {α : Type} (p : α → Bool) (f : α → α) (l : List α) : List α :=
  l.map fun x => if p x then f x else x

/-- `lo` if below, `hi` if above. -/
def clampNat (lo hi x : Nat) : Nat := max lo (min hi x)

/-- Field [lo + len - 1 : lo] of a word, as a number. -/
def bitsAt (w : Word) (lo len : Nat) : Nat := w.toNat / 2 ^ lo % 2 ^ len

/-- A word with `v` in field [lo + len - 1 : lo] and zero elsewhere. -/
def fieldOf (lo len v : Nat) : Word := BitVec.ofNat 64 (v % 2 ^ len * 2 ^ lo)

/-- `o` is element `k < n` of a register array. -/
def inArr (o base stride n : Nat) : Bool :=
  decide (base ≤ o) && decide ((o - base) % stride = 0) && decide ((o - base) / stride < n)

/-- BAR0 offsets of the blocks (Table 19-1). -/
def ctlBase : Nat := 0
def idBase : Nat := 0x1000
def portBase : Nat := 0x10000
def trayBase : Nat := 0x20000
def dirBase : Nat := 0x30000
def innkBase : Nat := 0x31000
def ledgBase : Nat := 0x32000
def keysBase : Nat := 0x33000
def timeBase : Nat := 0x34000
def hlthBase : Nat := 0x35000
def filtBase : Nat := 0x36000
def roomBase : Nat := 0x40000
def ringBase : Nat := 0x100000
def mboxBase : Nat := 0x2000000

/-- Reset value of an RWL register; none for an offset that names no RWL register (Tables 9-1, 18-6, 19-3 to 19-14). -/
def rwlReset (a20 : Bool) (o : Nat) : Option Word :=
  if o = ctlBase then some 0
  else if o = idBase + 0x10 then some 0
  else if o = portBase then some 0x0808
  else if o = portBase + 8 then some 0
  else if inArr o (portBase + 0x100) 8 128 then some 0x2000000001000000
  else if inArr o (portBase + 0x500) 8 144 then some 0x000003E800000190
  else if inArr o (portBase + 0xA00) 8 16 then some 0
  else if inArr o (portBase + 0xA80) 8 16 then some 0
  else if inArr o (portBase + 0xB00) 8 16 then some 1
  else if inArr o (portBase + 0xC00) 0x40 16 then some 0x4000000000000000
  else if inArr o (portBase + 0xC08) 0x40 16 || inArr o (portBase + 0xC10) 0x40 16
      || inArr o (portBase + 0xC18) 0x40 16 || inArr o (portBase + 0xC20) 0x40 16
      || inArr o (portBase + 0xC28) 0x40 16 || inArr o (portBase + 0xC30) 0x40 16 then some 0
  else if inArr o trayBase 8 64 then some 0
  else if o = dirBase then some 6
  else if o = dirBase + 8 then some 4
  else if o = dirBase + 0x10 then some 0x14
  else if o = dirBase + 0x28 then some 0x80808
  else if o = innkBase then some (if a20 then 0x0000041A0000041A else 0x000004E2000004E2)
  else if o = innkBase + 8 then some 0x6464646464646464
  else if o = ledgBase then some 0x0002000000000000
  else if o = ledgBase + 8 || o = ledgBase + 0x10 || o = ledgBase + 0x18 then some 0
  else if o = keysBase then some 0
  else if inArr o (keysBase + 0x140) 8 120 && decide ((o - keysBase - 0x140) % 0x40 < 0x30) then some 0
  else if o = timeBase then some 0
  else if o = timeBase + 8 then some 0x1B80000000000000
  else if o = ringBase || o = ringBase + 8 then some 0
  else if o = ringBase + 0x10 then some 0x000003E800000000
  else none

/-- The value an RWL register holds (R429 to R433). -/
def rwl (s : State) (o : Nat) : Word :=
  match s.regs.rwl.find? (fun e => e.1 == o) with
  | some e => e.2
  | none => (rwlReset s.fuses.a20 o).getD 0

/-- Puts (o, v) into a list with offsets rising. -/
def putRwl (o : Nat) (v : Word) : List (Nat × Word) → List (Nat × Word)
  | [] => [(o, v)]
  | e :: l => if o < e.1 then (o, v) :: e :: l else if o = e.1 then (o, v) :: l else e :: putRwl o v l

/-- Stores an RWL value; a register back at its reset value is not listed. -/
def setRwl (s : State) (o : Nat) (v : Word) : State :=
  { s with regs := { s.regs with
      rwl := if rwlReset s.fuses.a20 o = some v then s.regs.rwl.filter (fun e => e.1 != o)
             else putRwl o v s.regs.rwl } }

/-- One byte of a word held to 0 up to `m`, and to at least `lo`. -/
def clampByte (v : Word) (k lo m : Nat) : Word := fieldOf (8 * k) 8 (clampNat lo m (bitsAt v (8 * k) 8))

/-- The nearest legal value of an RWL register (R431; the ranges of the register's own table). -/
def legalRwl (s : State) (o : Nat) (v : Word) : Word :=
  if o = ctlBase then v &&& 0xC000000000000000
  else if o = idBase + 0x10 then v &&& 0x0003FFFF0000FFFF
  else if o = portBase then
    fieldOf 8 7 (clampNat 2 64 (bitsAt v 8 7)) ||| fieldOf 0 5 (clampNat 1 31 (bitsAt v 0 5))
  else if o = portBase + 8 then v &&& 0x000000007F0100FF
  else if inArr o (portBase + 0x100) 8 128 then
    (v &&& 0x8000000000000000)
      ||| fieldOf 61 2 (if bitsAt v 61 2 = 0 then 1 else bitsAt v 61 2)
      ||| fieldOf 50 6 (clampNat 0 55 (bitsAt v 50 6))
      ||| (v &&& 0x0003800000000000)
      ||| fieldOf 32 8 (if bitsAt v 32 8 ≤ 2 then bitsAt v 32 8 else 0)
      ||| fieldOf 16 16 (clampNat 0 1344 (bitsAt v 16 16))
  else if inArr o (portBase + 0x500) 8 144 then
    fieldOf 32 32 (clampNat 100 100000 (bitsAt v 32 32)) ||| fieldOf 0 32 (clampNat 100 100000 (bitsAt v 0 32))
  else if inArr o (portBase + 0xA00) 8 16 then
    (v &&& 0xC000000000000000) |||
      (if bitsAt v 62 1 = 1 then
        (v &&& 0x00FFFFFFC0000000) ||| fieldOf 19 11 (clampNat 0 2000 (bitsAt v 19 11))
       else 0)
  else if inArr o (portBase + 0xA80) 8 16 then v &&& 0xFFFFFFFFFFE00000
  else if inArr o (portBase + 0xB00) 8 16 then
    fieldOf 0 27 (clampNat 1 (max 1 (2 ^ 27 - 1 - bitsAt (rwl s (o - 0x80)) 21 27)) (bitsAt v 0 27))
  else if inArr o (portBase + 0xC00) 0x40 16 then v &&& 0xE03FFFFF00000000
  else if inArr o (portBase + 0xC08) 0x40 16 || inArr o (portBase + 0xC10) 0x40 16 then v &&& 0x0000FFFFFFFFFFFF
  else if inArr o trayBase 8 64 then v &&& 0xC0FF0000FFFFFFFF
  else if o = dirBase then fieldOf 0 3 (clampNat 1 6 (bitsAt v 0 3))
  else if o = dirBase + 8 then fieldOf 0 7 (clampNat 1 64 (bitsAt v 0 7))
  else if o = dirBase + 0x10 then fieldOf 0 8 (clampNat 1 200 (bitsAt v 0 8))
  else if o = dirBase + 0x28 then clampByte v 0 0 64 ||| clampByte v 1 0 64 ||| clampByte v 2 0 64
  else if o = innkBase then
    fieldOf 32 16 (clampNat 500 1450 (bitsAt v 32 16)) ||| fieldOf 0 16 (clampNat 500 1450 (bitsAt v 0 16))
  else if o = innkBase + 8 then
    (List.range 8).foldl (fun w k => w ||| clampByte v k 1 255) 0
  else if o = ledgBase then
    (v &&& 0xC000FFFF00000000) ||| fieldOf 48 10 (clampNat 1 1000 (bitsAt v 48 10))
  else if o = ledgBase + 0x10 then v &&& 0xFFFFFFFFFFE00000
  else if o = ledgBase + 0x18 then v &&& 0xBFFFFFFFFFFFFFFF
  else if o = keysBase then v &&& 0x00000000FFFFFFFF
  else if o = timeBase then BitVec.ofNat 64 (v.toNat - v.toNat % 1000000000)
  else if o = timeBase + 8 then v &&& 0xFFFF7FFFFF000000
  else if o = ringBase || o = ringBase + 8 then v &&& 0xFFFFFFFFFFFFF000
  else if o = ringBase + 0x10 then
    let dd := clampNat 0 10 (bitsAt v 56 4)
    (v &&& 0x80000000FFFFFFFF) ||| fieldOf 56 4 dd ||| fieldOf 52 4 (max dd (bitsAt v 52 4))
      ||| fieldOf 32 20 (clampNat 10 1000000 (bitsAt v 32 20))
  else v

/-! ### Settings read from the registers -/

/-- The switch's own ID and agent ID (Table 19-3). -/
def selfId (s : State) : SwitchId := (rwl s (idBase + 0x10)).extractLsb' 0 16
def selfAgent (s : State) : AgentId := (rwl s (idBase + 0x10)).extractLsb' 32 18

/-- T_dead in ns (R96). -/
def tDead (s : State) : Nat := bitsAt (rwl s portBase) 8 7 * 1000

/-- The fabric hop limit (R61). -/
def hopLimit (s : State) : Nat := bitsAt (rwl s portBase) 0 5

/-- W, the dedupe window in ns (R104). -/
def dedupeWindow (s : State) : Nat := 3 * tDead s + 12000

/-- `PORT.FAB_n`, and its fields (Table 19-5). -/
def fabReg (s : State) (n : Nat) : Word := rwl s (portBase + 0x100 + 8 * n)
def fabEn (s : State) (n : Nat) : Bool := decide (n < 128) && (bitsAt (fabReg s n) 63 1 == 1)
/-- lanes of a configured width: 2, 4 or 8. -/
def fabWidth (s : State) (n : Nat) : Nat := 2 ^ max 1 (bitsAt (fabReg s n) 61 2)
def fabPeer (s : State) (n : Nat) : Nat := bitsAt (fabReg s n) 32 8
def fabGroup (s : State) (n : Nat) : Nat := bitsAt (fabReg s n) 50 6
def fabFirst (s : State) (n : Nat) : Nat := bitsAt (fabReg s n) 47 3

/-- `PORT.MARK_n` for a virtual channel: best-effort channels are 1 and 6 (R71). -/
def markNs (s : State) (n : Nat) (vc : BitVec 3) : Nat :=
  bitsAt (rwl s (portBase + 0x500 + 8 * n)) (if vc = 1 ∨ vc = 6 then 32 else 0) 32

/-- `PORT.FLEX_n` and its fields (Table 19-4). -/
def flexReg (s : State) (n : Nat) : Word := rwl s (portBase + 0xA00 + 8 * n)
def flexEn (s : State) (n : Nat) : Bool := bitsAt (flexReg s n) 63 1 == 1
def flexDevice (s : State) (n : Nat) : Bool := bitsAt (flexReg s n) 62 1 == 1
def flexAgent (s : State) (n : Nat) : AgentId := (flexReg s n).extractLsb' 38 18
def flexRoom (s : State) (n : Nat) : RoomId := (flexReg s n).extractLsb' 30 8
def flexSnp (s : State) (n : Nat) : Nat := bitsAt (flexReg s n) 19 11
def flexWin (s : State) (n : Nat) : Word := rwl s (portBase + 0xA80 + 8 * n)
def flexLen (s : State) (n : Nat) : Nat := bitsAt (rwl s (portBase + 0xB00 + 8 * n)) 0 27

/-- `PORT.BRG_n` (Table 19-4). -/
def brgReg (s : State) (n : Nat) : Word := rwl s (portBase + 0xC00 + 0x40 * n)
def brgEn (s : State) (n : Nat) : Bool := bitsAt (brgReg s n) 63 1 == 1

/-- `TRAY.ATT_n` (Table 19-7). -/
def trayReg (s : State) (n : Nat) : Word := rwl s (trayBase + 8 * n)
def trayEn (s : State) (n : Nat) : Bool := decide (n < 64) && (bitsAt (trayReg s n) 63 1 == 1)
def trayFlex (s : State) (n : Nat) : Bool := bitsAt (trayReg s n) 62 1 == 1
def trayPort (s : State) (n : Nat) : Nat := bitsAt (trayReg s n) 48 8

/-- Backing store GiB (R106), A_age in ns (R119), lease period in ns (R123). -/
def backingGiB (s : State) : Nat := bitsAt (rwl s dirBase) 0 3
def ageNs (s : State) : Nat := bitsAt (rwl s (dirBase + 8)) 0 7 * 250
def leaseNs (s : State) : Nat := bitsAt (rwl s (dirBase + 0x10)) 0 8 * 1000000
/-- snapshot reserve of a tier, in 1/256 of its capacity (R141). -/
def snapRes (s : State) (tier : Nat) : Nat := bitsAt (rwl s (dirBase + 0x28)) (8 * tier) 8

/-- `LEDG.TWIN_CTL` and the mirror targets (Tables 19-10, 19-11). -/
def twinPresent (s : State) : Bool := bitsAt (rwl s ledgBase) 63 1 == 1
def witnessPresent (s : State) : Bool := bitsAt (rwl s ledgBase) 62 1 == 1
def tTake (s : State) : Nat := bitsAt (rwl s ledgBase) 48 10 * 1000000
def twinId (s : State) : SwitchId := (rwl s ledgBase).extractLsb' 32 16
def ledgerExtPresent (s : State) : Bool := bitsAt (rwl s (ledgBase + 0x18)) 63 1 == 1
def ledgerExtTray (s : State) : Nat := bitsAt (rwl s (ledgBase + 0x18)) 56 6
/-- First GFA of the fallback ledger extent (R440). -/
def ledgerExtBase (s : State) : Word :=
  BitVec.ofNat 64 ((selfId s).toNat * 2 ^ 48 + bitsAt (rwl s (ledgBase + 0x18)) 29 27 * 2 ^ 21)
def mirrorBase (s : State) : Word := rwl s (ledgBase + 0x10)
/-- g_p of `KEYS.PAIR_CTL` (R372). -/
def pairGen (s : State) : BitVec 32 := (rwl s keysBase).extractLsb' 0 32
/-- `KEYS.ANCHOR_k` for k = 1 to 15, and the Korroth root for k = 0 (R441). -/
def anchor (s : State) (k : Nat) : BitVec 384 :=
  if k = 0 then s.fuses.korrothRoot
  else (List.range 6).foldl
    (fun a w => a ||| ((rwl s (keysBase + 0x100 + 0x40 * k + 8 * w)).setWidth 384 <<< (64 * w))) 0
/-- `TIME.SRC_CTL` fields (Table 19-13). -/
def timeOrder (s : State) (i : Nat) : Nat := bitsAt (rwl s (timeBase + 8)) (62 - 2 * i) 2
def timePrio (s : State) : Nat := bitsAt (rwl s (timeBase + 8)) 48 8
def ptpDomain (s : State) : Nat := bitsAt (rwl s (timeBase + 8)) 40 7
def ptpEn (s : State) (n : Nat) : Bool := bitsAt (rwl s (timeBase + 8)) (24 + n) 1 == 1
def timeTod (s : State) : Nat := (rwl s timeBase).toNat

/-! ### Resolution at the lock (R433, Table 19-2) -/

/-- Clears bit `b` of an RWL register. -/
def clearBit (s : State) (o b : Nat) : State := setRwl s o (rwl s o &&& ~~~(fieldOf b 1 1))

/-- The lanes of fabric port n after alignment: (group, first, width). -/
def fabLanes (s : State) (n : Nat) : Nat × Nat × Nat := (fabGroup s n, fabFirst s n, fabWidth s n)

def lanesMeet (a b : Nat × Nat × Nat) : Bool :=
  a.1 == b.1 && decide (a.2.1 < b.2.1 + b.2.2) && decide (b.2.1 < a.2.1 + a.2.2)

/-- First row: the first lane is aligned down to a multiple of the width. -/
def lockAlign (s : State) : State :=
  (List.range 128).foldl (fun s n =>
    setRwl s (portBase + 0x100 + 8 * n)
      ((fabReg s n &&& 0xFFFC7FFFFFFFFFFF) ||| fieldOf 47 3 (fabFirst s n - fabFirst s n % fabWidth s n))) s

/-- Second row: of two enabled fabric ports that share a lane, the higher-numbered is disabled. -/
def lockShare (s : State) : State :=
  (List.range 128).foldl (fun s n =>
    if fabEn s n && (List.range n).any (fun m => fabEn s m && lanesMeet (fabLanes s m) (fabLanes s n))
    then clearBit s (portBase + 0x100 + 8 * n) 63 else s) s

/-- Third and fourth rows: odd bridge ports. Speed bit 62: 0 is 1.6 Tb/s. -/
def lockBridge (s : State) : State :=
  (List.range 16).foldl (fun s n =>
    if n % 2 = 1 then
      let s := setRwl s (portBase + 0xC00 + 0x40 * n) (brgReg s n ||| fieldOf 62 1 1)
      if brgEn s n && brgEn s (n - 1) && bitsAt (brgReg s (n - 1)) 62 1 == 0
      then clearBit s (portBase + 0xC00 + 0x40 * n) 63 else s
    else s) s

/-- Fifth row: the hop limit is lowered to floor(T_dead / 850 ns). -/
def lockHops (s : State) : State :=
  if hopLimit s > tDead s / 850 then
    setRwl s portBase ((rwl s portBase &&& 0xFFFFFFFFFFFFFFE0) ||| fieldOf 0 5 (tDead s / 850)) else s

/-- Whether a tray attachment's port can carry it (sixth row). -/
def trayPortOk (s : State) (n : Nat) : Bool :=
  if trayFlex s n then decide (trayPort s n < 16) && flexEn s (trayPort s n) && !flexDevice s (trayPort s n)
  else fabEn s (trayPort s n) && fabPeer s (trayPort s n) == 2

/-- Sixth and seventh rows: tray attachments. -/
def lockTrays (s : State) : State :=
  let s := (List.range 64).foldl (fun s n =>
    if trayEn s n && !trayPortOk s n then clearBit s (trayBase + 8 * n) 63 else s) s
  (List.range 64).foldl (fun s n =>
    if trayEn s n && (List.range n).any (fun m =>
        trayEn s m && trayFlex s m == trayFlex s n && trayPort s m == trayPort s n)
    then clearBit s (trayBase + 8 * n) 63 else s) s

/-- The last rows: ledger extent, twin, witness, time source order. -/
def lockRest (s : State) : State :=
  let s := if ledgerExtPresent s && !trayEn s (ledgerExtTray s) then clearBit s (ledgBase + 0x18) 63 else s
  let s := if twinPresent s && twinId s == selfId s then clearBit s ledgBase 63 else s
  let s := if witnessPresent s && !twinPresent s then clearBit s ledgBase 62 else s
  if [0, 1, 2, 3].all (fun c => (List.range 4).any (fun i => timeOrder s i == c)) then s
  else setRwl s (timeBase + 8) ((rwl s (timeBase + 8) &&& 0x00FFFFFFFFFFFFFF) ||| fieldOf 56 8 0x1B)

/-- R433: conflicts are resolved in the order of Table 19-2. -/
def resolveAtLock (s : State) : State :=
  lockRest (lockTrays (lockHops (lockBridge (lockShare (lockAlign s)))))

end Sys2Proof.Machine
end

