-- ==== Sys2Proof/Machine/Ops.lean ====
section
/-!
DEFINITION. Machine/Ops.lean: the named operations over addresses, memory, marks, time stamps, fault records,
packets, rooms and admission that the commands share.
-/

namespace Sys2Proof.Machine

/-! ### Bytes and little-endian values (R6) -/

/-- The `n` bytes of a value, least significant first. -/
def leBytes : Nat → Nat → List Byte
  | 0, _ => []
  | n + 1, v => BitVec.ofNat 8 v :: leBytes n (v / 256)

/-- `n` bytes of a value, most significant first. -/
def beBytes (n v : Nat) : List Byte := (leBytes n v).reverse

/-- The value of bytes, least significant first. -/
def leVal : List Byte → Nat
  | [] => 0
  | b :: l => b.toNat + 256 * leVal l

/-- Two's-complement value of a `b`-bit field. -/
def signedOf (b v : Nat) : Int := if v % 2 ^ b < 2 ^ (b - 1) then (v % 2 ^ b : Nat) else (v % 2 ^ b : Nat) - (2 ^ b : Nat)

/-- The element with the largest key, the first of equals. -/
def maxBy {α : Type} (key : α → Nat) : List α → Option α
  | [] => none
  | a :: l => match maxBy key l with
    | none => some a
    | some b => if key a < key b then some b else some a

/-! ### Addresses (R21, Table 2-1) -/

def homeOf (g : Word) : SwitchId := g.extractLsb' 48 16
def extIdx (g : Word) : Nat := bitsAt g 21 27
def extKey (g : Word) : Nat := g.toNat / 2 ^ 21
def tileKey (g : Word) : Nat := g.toNat / 2 ^ 16
def lineKey (g : Word) : Nat := g.toNat / 64
def lineGfa (line : Nat) : Word := BitVec.ofNat 64 (line * 64)
def tileGfa (key : Nat) : Word := BitVec.ofNat 64 (key * 2 ^ 16)

/-- This switch is the home of an address: its own ID, or one adopted at a takeover (R357). -/
def isHome (s : State) (x : SwitchId) : Bool := x == selfId s || s.twin.adopted.contains x

/-! ### Memory: canonical byte cells (R40: unlisted bytes read zero) -/

/-- One byte. -/
def readByte (m : List Host.Cell) (a : Nat) : Byte :=
  match m.find? (fun c => c.1 == a) with
  | some c => c.2
  | none => 0

/-- Stores one byte and keeps the canonical form: addresses rising, no zero byte listed. -/
def writeByte : List Host.Cell → Nat → Byte → List Host.Cell
  | [], a, b => if b = 0 then [] else [(a, b)]
  | c :: m, a, b =>
    if a < c.1 then (if b = 0 then c :: m else (a, b) :: c :: m)
    else if a = c.1 then (if b = 0 then m else (a, b) :: m)
    else c :: writeByte m a b

/-- `n` bytes from `a` on. -/
def readBytes (m : List Host.Cell) (a : Nat) : Nat → List Byte
  | 0 => []
  | n + 1 => readByte m a :: readBytes m (a + 1) n

/-- Stores bytes from `a` on. -/
def writeBytes (m : List Host.Cell) (a : Nat) : List Byte → List Host.Cell
  | [] => m
  | b :: l => writeBytes (writeByte m a b) (a + 1) l

/-- Removes every cell from `a` up to before `a + n`: they read zero. -/
def clearRange (m : List Host.Cell) (a n : Nat) : List Host.Cell :=
  m.filter fun c => !(decide (a ≤ c.1) && decide (c.1 < a + n))

/-- Addresses strictly rise above `lo` and no listed byte is zero. -/
def memOkFrom (lo : Nat) : List Host.Cell → Bool
  | [] => true
  | c :: m => decide (lo ≤ c.1) && (c.2 != 0) && memOkFrom (c.1 + 1) m

/-- The canonical form of memory. -/
def Memory.wf (m : List Host.Cell) : Bool := memOkFrom 0 m

/-- The mark of a line (R182). -/
def markOf (s : State) (line : Nat) : Option Mark :=
  (s.pool.marks.find? (fun e => e.1 == line)).map (fun e => e.2)

/-- Sets or clears the mark of a line; marks are kept in order of line. -/
def putMark (l : Nat) (k : Option Mark) : List (Nat × Mark) → List (Nat × Mark)
  | [] => match k with
    | none => []
    | some x => [(l, x)]
  | e :: m =>
    if l < e.1 then (match k with
      | none => e :: m
      | some x => (l, x) :: e :: m)
    else if l = e.1 then (match k with
      | none => m
      | some x => (l, x) :: m)
    else e :: putMark l k m

def setMark (s : State) (line : Nat) (k : Option Mark) : State :=
  { s with pool := { s.pool with marks := putMark line k s.pool.marks } }

/-! ### Time (R13, R14, R316) -/

/-- Fabric time of an island's copy: within 4 ns of the reference, and never decreasing (R13). Islands, in the model's own
numbers: directory slices 0 to 15, the stewards 16, the version manager 17, the innkeeper 18, the switch core 20, front ends
32 and 33, caravan clusters 100 on. -/
def stamp (s : State) (island : Nat) : Nat :=
  (max s.time.copy s.time.now + Config.islandSkew island % 9 - 4) % 2 ^ 64

/-- The island that stamps the records of a ring's front end (R14). -/
def frontEndIsland (r : BitVec 12) : Nat := 32 + r.toNat % 2

/-! ### Fault records and events (R367, R368, R412) -/

/-- Drops the oldest event of severity 1, or failing that the oldest event (R412). -/
def dropEvent (l : List FaultRec) : List FaultRec :=
  match l.find? (fun r => r.severity == 1) with
  | some r => l.erase r
  | none => l.drop 1

/-- Queues an EVENT message; up to 256 wait (R412). -/
def addEvent (s : State) (r : FaultRec) : State :=
  if s.mgmt.events.length ≥ 256 then
    { s with mgmt := { s.mgmt with events := dropEvent s.mgmt.events ++ [r], evOverwritten := s.mgmt.evOverwritten + 1 } }
  else { s with mgmt := { s.mgmt with events := s.mgmt.events ++ [r] } }

/-- The 64 B of a fault record (Table 15-10), little-endian, as one number. -/
def faultBits (s : State) (r : FaultRec) : Nat :=
  0x0007 + r.kind * 2 ^ 16 + r.severity * 2 ^ 24 + r.serial.toNat * 2 ^ 32 + r.time * 2 ^ 64
    + (selfId s).toNat * 2 ^ 128 + r.room.toNat * 2 ^ 144 + r.unitCode * 2 ^ 152 + r.unitIndex * 2 ^ 160
    + r.status.toNat * 2 ^ 176 + r.agent.toNat * 2 ^ 192 + r.tag.toNat * 2 ^ 224 + r.info.toNat * 2 ^ 256

/-- The island that detects a fault and stamps its record (R14, R367): the directory slice of a line homed here, the front end
of a ring, else the switch core for a request and the stewards for what they watch. -/
def faultIsland (s : State) (r : FaultRec) : Nat :=
  if r.kind = 0x01 then
    (if isHome s (homeOf (BitVec.ofNat 64 r.info.toNat)) then bitsAt (BitVec.ofNat 64 r.info.toNat) 8 3 else 20)
  else if r.kind = 0x05 then frontEndIsland (BitVec.ofNat 12 r.unitIndex)
  else if r.kind = 0x02 then 0
  else 16

/-- Writes a fault record: the next serial, into the log of 65,536 (the oldest is overwritten and counted); a record of
severity 1 or 2 is also a management event on PF vector 1 and an MCTP event (R368, R399). -/
def addFault (s : State) (r : FaultRec) : State :=
  let r := { r with serial := s.hlth.serial, time := stamp s (faultIsland s r) }
  let full := decide (s.hlth.log.length ≥ 65536)
  let s := { s with hlth := { s.hlth with
      log := (if full then s.hlth.log.drop 1 else s.hlth.log) ++ [r]
      overwritten := if full then s.hlth.overwritten + 1 else s.hlth.overwritten
      serial := s.hlth.serial + 1 } }
  if r.severity = 0 then s
  else
    let s := addEvent s r
    { s with out := s.out ++ [.msix 0 1, .mctp 0x10 0 0 (leBytes 64 (faultBits s r))] }

/-- A fault record with the fields that most kinds share. -/
def mkFault (kind severity : Nat) (info : Nat) : FaultRec :=
  { kind := kind, severity := severity, serial := 0, time := 0, info := BitVec.ofNat 256 info }

/-! ### Rooms, domains, extents -/

def roomOf (s : State) (r : RoomId) : Option Room := s.rooms.rooms.find? (fun x => x.id == r)

def updRoom (s : State) (r : RoomId) (f : Room → Room) : State :=
  { s with rooms := { s.rooms with rooms := mapIf (fun x => x.id == r) f s.rooms.rooms } }

/-- A room takes its rules (R92, R157). -/
def takeRules (s : State) (r : RoomId) (m : RoomRules) : State :=
  updRoom s r fun x => { x with
    rate := m.rate, burst := m.burst, beRate := m.beRate, unified := m.unified, thr := m.thr, interval := m.interval
    hi0 := m.hi0, lo0 := m.lo0, hi1 := m.hi1, lo1 := m.lo1 }

/-- Takes a room off the list of rooms; once composed, its counters stay as those of a freed room (R445). -/
def dropRoom (s : State) (r : RoomId) : State :=
  let kept := (s.rooms.rooms.filter (fun x => x.id == r && x.current != 0)).map fun (x : Room) =>
    ({ id := x.id, holder := x.holder, lateMoves := x.lateMoves, demoted := x.demoted, raw := x.raw, misses := x.misses,
       refused := x.refused } : Room)
  { s with rooms := { s.rooms with
      rooms := s.rooms.rooms.filter (fun x => x.id != r)
      freed := if kept.isEmpty then s.rooms.freed else s.rooms.freed.filter (fun x => x.id != r) ++ kept } }

/-- The current epoch of a room; room 0x00 has epoch 0 (R33). -/
def currentEpoch (s : State) (r : RoomId) : Epoch :=
  if r = 0 then 0 else match roomOf s r with
    | some x => x.current
    | none => 0

/-- Whether an epoch of a room is live (R33, R34). -/
def liveEpoch (s : State) (r : RoomId) (e : Epoch) : Bool :=
  if r = 0 then e == 0
  else match roomOf s r with
    | some x => e != 0 && (x.current == e || x.older == some e ||
        (match x.commit with
          | some c => c.epoch == e && c.acked.contains (selfId s)
          | none => false))
    | none => false

/-- The slice of a room at a switch in its newest live epoch. -/
def sliceOf (s : State) (r : RoomId) : Option Slice :=
  match roomOf s r with
  | some x => x.cur.find? (fun y => y.switch == selfId s)
  | none => none

/-- The newer of two epochs of a room, 0 being none (R33): epochs rise modulo 2^16. -/
def newerEpoch (a b : Epoch) : Epoch := if a = 0 then b else if b = 0 then a else if (b - a).toNat < 2 ^ 15 then b else a

/-- The epoch that a new request of this switch's own agent carries: the newest that it has received for the room, by a
response or as a member (R33). -/
def requestEpoch (s : State) (r : RoomId) : Epoch :=
  if r = 0 then 0
  else newerEpoch (currentEpoch s r) (((s.own.epochs.find? (fun x => x.1 == r)).map (fun x => x.2)).getD 0)

/-- A response has brought a room's current epoch (R33). -/
def learnEpoch (s : State) (r : RoomId) (e : Epoch) : State :=
  if r = 0 then s
  else { s with own := { s.own with
    epochs := s.own.epochs.filter (fun x => x.1 != r) ++ [(r, newerEpoch (requestEpoch s r) e)] } }

/-- The agent of a switch (Table 2-2). -/
def switchAgentId (s : State) (x : SwitchId) : AgentId := if x = selfId s then selfAgent s else Config.agentOf x

/-- The slices of a room's live epochs: the current one, the one before it, and the next once it is installed here (R24, R34). -/
def liveSlices (s : State) (x : Room) : List Slice :=
  x.cur ++ x.old ++ (match x.commit with
    | some c => if c.acked.contains (selfId s) then c.slices else []
    | none => [])

/-- Agents of a room by R24: the member lists, the agents of the switches that hold a slice, and the device-role flex agents
of the room. -/
def isMember (s : State) (a : AgentId) (r : RoomId) : Bool :=
  if r = 0 then a == selfAgent s || Config.switchAgent a
  else match roomOf s r with
    | some x =>
      (liveSlices s x).any (fun y => y.members.contains a || switchAgentId s y.switch == a)
        || (List.range 16).any (fun n => flexEn s n && flexDevice s n && flexAgent s n == a && flexRoom s n == r)
    | none => false

/-- The agents of a sharing domain (R26). -/
def domainAgents (s : State) (r : RoomId) (d : Byte) : List AgentId :=
  match s.rooms.domains.find? (fun x => x.room == r && x.idx == d) with
  | some x => x.agents
  | none => []

def extentOf (s : State) (key : Nat) : Option Extent := s.maps.exts.find? (fun x => x.key == key)

def updExtent (s : State) (key : Nat) (f : Extent → Extent) : State :=
  { s with maps := { s.maps with exts := mapIf (fun x => x.key == key) f s.maps.exts } }

def tileOf (s : State) (key : Nat) : Option Tile := s.maps.tiles.find? (fun x => x.key == key)

def updTile (s : State) (key : Nat) (f : Tile → Tile) : State :=
  { s with maps := { s.maps with tiles := mapIf (fun x => x.key == key) f s.maps.tiles } }

/-- The admission test of R27 at the home: 0x00 served, 0x03 denied, 0x08 stale epoch (R35). `cnt` says that the
request is counted in a Draining extent (R42). -/
def admitCode (s : State) (agent : AgentId) (room : RoomId) (epoch : Epoch) (g : Word) (cnt : Bool) : BitVec 8 :=
  if extIdx g = 0 then 0x03
  else match extentOf s (extKey g) with
    | none => 0x03
    | some x =>
      if room != x.room then 0x03
      else if !(domainAgents s x.room x.domain).contains agent then 0x03
      else if x.st == .draining && !cnt then 0x03
      else if !liveEpoch s room epoch then 0x08
      else 0x00

/-! ### Hashes (R63, R64) -/

/-- XOR of the 16-bit pieces of x, from bit 0 upward. -/
def fold16 (x : Nat) : Nat :=
  (List.range 4).foldl (fun h k => h ^^^ (x / 2 ^ (16 * k) % 2 ^ 16)) 0

def rotl16 (x n : Nat) : Nat := (x * 2 ^ n + x / 2 ^ (16 - n)) % 2 ^ 16

/-- h_f of a source agent, a home switch and an ordering class. -/
def hashF (src : AgentId) (home : SwitchId) (ocls : BitVec 2) : Nat :=
  (src.toNat % 2 ^ 16) ^^^ (src.toNat / 2 ^ 16 * 2 ^ 14) ^^^ rotl16 home.toNat 7 ^^^ (ocls.toNat * 2 ^ 12)

/-- h_a, the line form, of GFA[47:8]. -/
def hashA (g : Word) : Nat := fold16 (bitsAt g 8 40)

/-- h_t, the tile form, of GFA[47:16]. -/
def hashT (g : Word) : Nat := fold16 (bitsAt g 16 32)

def hashP (src : AgentId) (home : SwitchId) (ocls : BitVec 2) (g : Word) : Nat := hashF src home ocls ^^^ hashA g

/-- The path value of a packet: h_f for the ordered classes, h_p for relaxed (R64). -/
def pathHash (src : AgentId) (home : SwitchId) (ocls : BitVec 2) (g : Word) : Nat :=
  if ocls = 0 then hashP src home ocls g else hashF src home ocls

/-! ### Packets formed by this switch -/

/-- Slots of a payload. -/
def slotsOf (n : Nat) : Nat := (n + 15) / 16

/-- Virtual channels of Table 3-4. -/
def vcReqR : BitVec 3 := 0
def vcReqB : BitVec 3 := 1
def vcRsp : BitVec 3 := 2
def vcSnp : BitVec 3 := 3
def vcWb : BitVec 3 := 4
def vcCtl : BitVec 3 := 7

/-- A packet from this switch's own agent; hops as R61 has the ingress switch write them. -/
def mkPacket (s : State) (opcode : BitVec 8) (vc : BitVec 3) (ocls : BitVec 2) (wcls : BitVec 2) (room : RoomId)
    (dst : AgentId) (tag : Tag) (w2 w3 : Word) (data : List Byte) : Packet :=
  { opcode := opcode, vc := vc, ocls := ocls, ce := false, poison := false, mcast := false, room := room,
    src := selfAgent s, dst := dst, hint := 0, tag := tag, epoch := currentEpoch s room,
    len := slotsOf data.length, hops := hopLimit s, wcls := wcls, cee := false, w2 := w2, w3 := w3, data := data }

/-- Hands a packet to the switch core (it is routed at a later tick). -/
def emit (s : State) (p : Packet) : State := { s with fab := { s.fab with outbox := s.fab.outbox ++ [p] } }

/-- Appends an output. -/
def say (s : State) (o : Out) : State := { s with out := s.out ++ [o] }

/-- Takes the first delivered packet with this opcode, source and tag out of the inbox, if there is one. -/
def takeInbox (s : State) (opcode : BitVec 8) (src : AgentId) (tag : Tag) : State :=
  { s with fab := { s.fab with
      inbox := s.fab.inbox.eraseP (fun p => p.opcode == opcode && p.src == src && p.tag == tag) } }

/-- A free value of the model is drawn: the counter advances. -/
def drawn (s : State) : State := { s with freeCount := s.freeCount + 1 }

/-! ### Retired units (Table 15-8) -/

def isRetired (s : State) (code idx : Nat) : Bool := s.hlth.retired.contains (code, idx)

/-- The switch runs work: the set-up lock is taken and it has not stopped (R420, Table 15-7). -/
def isRunning (s : State) : Bool := s.boot.power == .running

end Sys2Proof.Machine
end

