-- ==== Sys2Proof/Machine/Codec.lean ====
section
/-!
DEFINITION. Machine/Codec.lean: the layout descriptor's formats (Table 8-2), the frequency table (Table 8-6), and whether a
tile codes or is stored raw (R185 to R188).
-/

namespace Sys2Proof.Machine

/-! ### CRC-32C -/

def crcByte (c : BitVec 32) (b : Byte) : BitVec 32 :=
  (List.range 8).foldl (fun c _ => if c.getLsbD 0 then (c >>> 1) ^^^ 0x82F63B78#32 else c >>> 1)
    (c ^^^ b.setWidth 32)

/-- CRC-32C (Castagnoli), initial value and final XOR of all ones. -/
def crc32c (l : List Byte) : BitVec 32 := l.foldl crcByte 0xFFFFFFFF#32 ^^^ 0xFFFFFFFF#32

/-! ### Formats (Table 8-2) -/

/-- Element bits of a format code. -/
def elementBits (f : Nat) : Nat :=
  if f = 2 ∨ f = 6 then 4 else if f = 7 ∨ f = 8 then 16 else if f = 9 then 32 else 8

/-- Bytes of the element region of a format. -/
def elementRegion (f : Nat) : Nat := if f = 5 then 63520 else if f = 6 then 61680 else 65536

/-- rANS symbol width of a format; 0 where it has none. -/
def symbolBits (f : Nat) : Nat := if f ≤ 6 then elementBits f else 0

/-! ### The frequency table (R186) -/

/-- Bytes [a, a + n) of a list as a number. -/
def leAt (l : List Byte) (a n : Nat) : Nat := leVal ((l.drop a).take n)

/-- The frequencies of a table of `n` symbols. -/
def tableFreqs (t : List Byte) (n : Nat) : List Nat := (List.range n).map fun i => leAt t (16 + 2 * i) 2

/-- Every check of Table 8-6, for symbols of `w` bits. -/
def tableValid (t : List Byte) (w : Nat) : Bool :=
  let n := 2 ^ w
  let f := tableFreqs t n
  leAt t 0 2 == 1 && leAt t 2 1 == w && leAt t 3 1 == 12 && leAt t 4 2 == n && leAt t 6 2 == 0
    && leAt t 8 4 == (crc32c ((t.drop 16).take (2 * n))).toNat && leAt t 12 4 == 0
    && f.all (fun x => decide (x ≤ 4096)) && f.sum == 4096

/-! ### rANS (R187) -/

/-- Takes bytes in until the state is at least 2^23; none when they run out. -/
def refill (x : Nat) : List Byte → Option (Nat × List Byte)
  | [] => if x < 2 ^ 23 then none else some (x, [])
  | b :: l => if x < 2 ^ 23 then refill (x * 256 + b.toNat) l else some (x, b :: l)

/-- Decodes `m` symbols with the frequencies of a table; none where the bytes do not match them. -/
def ransSymbols (fs : List Nat) : Nat → Nat → List Byte → Option (List Nat)
  | 0, _, l => if l.isEmpty then some [] else none
  | m + 1, x, l =>
    let slot := x % 4096
    match (List.range fs.length).find? (fun s => decide ((fs.take s).sum ≤ slot) && decide (slot < (fs.take (s + 1)).sum)) with
    | none => none
    | some s => match refill (fs.getD s 0 * (x / 4096) + slot - (fs.take s).sum) l with
      | none => none
      | some (y, l) => (ransSymbols fs m y l).map (fun r => s :: r)

/-- One stored sub-stream of `m` symbols. -/
def ransDecode (fs : List Nat) (m : Nat) (st : List Byte) : Option (List Nat) :=
  if st.length < 4 then none else ransSymbols fs m (leAt st 0 4) (st.drop 4)

/-- Sends low bytes until the state fits: the state, and the bytes with the last one sent first. -/
def sendBytes : Nat → Nat → Nat → List Byte → Nat × List Byte
  | 0, _, x, out => (x, out)
  | k + 1, lim, x, out => if x ≥ lim then sendBytes k lim (x / 256) (BitVec.ofNat 8 x :: out) else (x, out)

/-- A coded sub-stream; none where a symbol has frequency 0. -/
def ransEncode (fs : List Nat) (syms : List Nat) : Option (List Byte) :=
  if syms.any (fun s => fs.getD s 0 == 0) then none
  else
    let (x, out) := syms.reverse.foldl (fun (p : Nat × List Byte) s =>
      let f := fs.getD s 0
      let (x, out) := sendBytes 4 (f * 2 ^ 19) p.1 p.2
      (x / max 1 f * 2 ^ 12 + x % max 1 f + (fs.take s).sum, out)) (2 ^ 23, [])
    some (leBytes 4 x ++ out)

/-- Puts eight sub-streams' symbols back in order: symbol i from sub-stream i mod 8. -/
def interleave (subs : List (List Nat)) (n : Nat) : List Nat :=
  (List.range n).map fun i => (subs.getD (i % 8) []).getD (i / 8) 0

/-- Bytes of symbols: bytes, or two nibbles each, the low one first. -/
def symbolBytes (w : Nat) : List Nat → List Byte
  | [] => []
  | [a] => [BitVec.ofNat 8 a]
  | a :: b :: l => if w = 8 then BitVec.ofNat 8 a :: symbolBytes w (b :: l) else BitVec.ofNat 8 (a + 16 * b) :: symbolBytes w l

/-- The symbols of bytes: the bytes, or each byte's low and then high nibble. -/
def symbolsOf (w : Nat) (l : List Byte) : List Nat :=
  if w = 8 then l.map (fun b => b.toNat) else l.flatMap (fun b => [b.toNat % 16, b.toNat / 16])

/-- Every eighth element from the k-th on. -/
def everyEighth (k : Nat) (l : List Nat) : List Nat :=
  (l.zipIdx.filter (fun x => x.2 % 8 == k)).map (fun x => x.1)

/-- The eight sub-streams of one block; none where one has a symbol of frequency 0. -/
def codeBlock (fs : List Nat) (w : Nat) (block : List Byte) : Option (List (List Byte)) :=
  (List.range 8).mapM fun k => ransEncode fs (everyEighth k (symbolsOf w block))

/-- Blocks of 4,096 B. -/
def blocksOf (l : List Byte) : List (List Byte) := (List.range ((l.length + 4095) / 4096)).map fun i => (l.drop (4096 * i)).take 4096

/-- The coded body of a tile of format `f` (R185): the table, the block directory, the blocks, the raw tail; none where it cannot be
coded. -/
def codedBody (f : Nat) (table tile : List Byte) : Option (List Byte) :=
  let w := symbolBits f
  if w = 0 ∨ !tableValid table w then none
  else
    let fs := tableFreqs table (2 ^ w)
    let region := tile.take (elementRegion f)
    ((blocksOf region).mapM (codeBlock fs w)).map fun bs =>
      let dir := bs.flatMap fun b => b.flatMap fun x => leBytes 2 x.length
      table.take (16 + 2 * 2 ^ w) ++ dir ++ List.replicate (256 - dir.length) 0 ++ bs.flatMap (fun b => b.flatten)
        ++ tile.drop (elementRegion f)

/-- Splits bytes into pieces of given lengths; none where they are too short. -/
def cutBytes : List Nat → List Byte → Option (List (List Byte))
  | [], _ => some []
  | n :: l, b => if b.length < n then none else (cutBytes l (b.drop n)).map fun r => b.take n :: r

/-- The block of `n` symbols that eight sub-streams decode to. -/
def decodeBlock (fs : List Nat) (w n : Nat) (subs : List (List Byte)) : Option (List Byte) :=
  (subs.zipIdx.mapM fun x => ransDecode fs ((n + 7 - x.2) / 8) x.1).map fun l => symbolBytes w (interleave l n)

/-- The tile that a coded body decodes to (R185, R187); none where it is not one. -/
def decodedBody (f : Nat) (body : List Byte) : Option (List Byte) :=
  let w := symbolBits f
  let t := 16 + 2 * 2 ^ w
  if w = 0 ∨ !tableValid (body.take t) w then none
  else
    let fs := tableFreqs body (2 ^ w)
    let sizes := (blocksOf (List.replicate (elementRegion f) 0)).map fun b => b.length
    let lens := (List.range (8 * sizes.length)).map fun k => leAt body (t + 2 * k) 2
    match cutBytes lens (body.drop (t + 256)) with
    | none => none
    | some subs =>
      ((sizes.zipIdx.mapM fun x => decodeBlock fs w (x.1 * 8 / w) ((subs.drop (8 * x.2)).take 8)).map fun bs =>
        bs.flatten ++ body.drop (t + 256 + lens.sum)).filter fun l => l.length == 65536

/-- Whether a tile of format `f` is stored coded: its body codes to at most 65,536 B (R188). -/
def storesCoded (f : Nat) (table tile : List Byte) : Bool :=
  match codedBody f table tile with
  | some b => decide (b.length ≤ 65536)
  | none => false

end Sys2Proof.Machine
end

