-- ==== Sys2Proof/Machine/Flags.lean ====
section
/-!
DEFINITION. Machine/Flags.lean: the flags of a core (Table 10-3) and how an operation sets them.
-/

namespace Sys2Proof.Machine

/-- What an arithmetic operation raised: flags [0] and [1] of Table 10-3, and P. -/
structure Raised where
  invalid : Bool := false
  overflow : Bool := false
  poison : Bool := false
  deriving DecidableEq, Repr

/-- Flags raised by either of two operations. -/
def Raised.or (a b : Raised) : Raised :=
  { invalid := a.invalid || b.invalid, overflow := a.overflow || b.overflow, poison := a.poison || b.poison }

def flagInvalid : Nat := 0
def flagOverflow : Nat := 1
def flagPoison : Nat := 2
def flagMemory : Nat := 3
def flagCodeStore : Nat := 4
def flagRestarted : Nat := 5
def flagHandle : Nat := 6

/-- Sets one flag. -/
def setFlag (f : BitVec 7) (k : Nat) : BitVec 7 := f ||| BitVec.ofNat 7 (2 ^ k)

/-- Clears one flag. -/
def clearFlag (f : BitVec 7) (k : Nat) : BitVec 7 := f &&& ~~~(BitVec.ofNat 7 (2 ^ k))

/-- Sets one flag where a condition holds. -/
def setFlagIf (f : BitVec 7) (k : Nat) (b : Bool) : BitVec 7 := if b then setFlag f k else f

/-- Adds what an operation raised. -/
def raise (f : BitVec 7) (r : Raised) : BitVec 7 :=
  setFlagIf (setFlagIf (setFlagIf f flagInvalid r.invalid) flagOverflow r.overflow) flagPoison r.poison

end Sys2Proof.Machine
end

