-- ==== Sys2Proof/Machine/Operands.lean ====
section
/-!
DEFINITION. Machine/Operands.lean: the types of Table 10-10 as numbers, their one rounding (R243 to R246), the element
operations of the core (R244 to R248), and the exact accumulators (R249 to R253).
-/

namespace Sys2Proof.Machine

/-! ### Types (Table 10-10) -/

/-- Width of a type in bits; MX codes have the width of their elements. -/
def tyWidth (t : Nat) : Nat :=
  match t with
  | 0x0 => 32
  | 0x1 => 16
  | 0x2 => 16
  | 0x3 => 8
  | 0x4 => 8
  | 0x5 => 4
  | 0x6 => 32
  | 0x7 => 8
  | 0x8 => 4
  | 0x9 => 8
  | 0xA => 8
  | 0xB => 4
  | _ => 32

def tyInt (t : Nat) : Bool := t == 6 || t == 7 || t == 8

/-- The element type of an MX code. -/
def tyElement (t : Nat) : Nat := if t = 0x9 then 0x3 else if t = 0xA then 0x4 else if t = 0xB then 0x5 else t

/-- Exponent and fraction bits of a floating-point type. -/
def tyExp (t : Nat) : Nat := if t ≤ 1 then 8 else if t = 2 ∨ t = 4 then 5 else if t = 3 then 4 else 2
def tyFrac (t : Nat) : Nat :=
  match t with
  | 0x0 => 23
  | 0x1 => 7
  | 0x2 => 10
  | 0x3 => 3
  | 0x4 => 2
  | _ => 1
def tyBias (t : Nat) : Nat := 2 ^ (tyExp t - 1) - 1
def tyHasInf (t : Nat) : Bool := t == 0 || t == 1 || t == 2 || t == 4

/-- Exponent of the unit of the smallest subnormal. -/
def tyUnit (t : Nat) : Int := 1 - (tyBias t : Int) - (tyFrac t : Int)

/-- Encoding of the largest finite value, sign bit clear. -/
def tyMaxBits (t : Nat) : Nat :=
  if tyHasInf t then (2 ^ tyExp t - 1) * 2 ^ tyFrac t - 1 else if t = 3 then 0x7E else 0x7

/-- Encoding of +∞. -/
def tyInfBits (t : Nat) : Nat := (2 ^ tyExp t - 1) * 2 ^ tyFrac t

/-- The canonical NaN (R245); E2M1 has none and takes +0 (R246). -/
def tyNan (t : Nat) : Nat :=
  match t with
  | 0x0 => 0x7FC00000
  | 0x1 => 0x7FC0
  | 0x2 => 0x7E00
  | 0x3 => 0x7F
  | 0x4 => 0x7E
  | _ => 0

/-- A number, exact: the value of `fin` is (-1)^neg · m · 2^e. -/
inductive Num where
  | nan
  | inf (neg : Bool)
  | fin (neg : Bool) (m : Nat) (e : Int)
  deriving DecidableEq, Repr

/-- The number that an encoding of a type stands for. -/
def decodeNum (t v : Nat) : Num :=
  if tyInt t then
    let x := signedOf (tyWidth t) v
    .fin (decide (x < 0)) x.natAbs 0
  else
    let w := tyWidth t
    let v := v % 2 ^ w
    let neg := v / 2 ^ (w - 1) == 1
    let b := v % 2 ^ (w - 1)
    let ex := b / 2 ^ tyFrac t
    let fr := b % 2 ^ tyFrac t
    if tyHasInf t && ex == 2 ^ tyExp t - 1 then (if fr = 0 then .inf neg else .nan)
    else if t = 3 ∧ b = 0x7F then .nan
    else if ex = 0 then .fin neg fr (tyUnit t)
    else .fin neg (2 ^ tyFrac t + fr) (tyUnit t + (ex : Int) - 1)

/-! ### One rounding (R244, R246) -/

/-- Bits of a number: 0 of zero. -/
def bitLen (m : Nat) : Nat := if m = 0 then 0 else Nat.log2 m + 1

/-- m ÷ 2^k to nearest, ties to even. -/
def shiftRne (m k : Nat) : Nat :=
  let q := m / 2 ^ k
  let r := m % 2 ^ k
  if 2 * r > 2 ^ k ∨ (2 * r = 2 ^ k ∧ q % 2 = 1) then q + 1 else q

/-- The unit exponent at which a value is rounded for a type. -/
def roundUnit (t m : Nat) (e : Int) : Int := max (tyUnit t) (e + (bitLen m : Int) - 1 - (tyFrac t : Int))

/-- Sign bit of a type. -/
def signBit (t : Nat) (neg : Bool) : Nat := if neg then 2 ^ (tyWidth t - 1) else 0

/-- The encoding of q units of 2^u, unless that is beyond the largest finite. -/
def packNum (t : Nat) (neg : Bool) (q : Nat) (u : Int) : Nat × Raised :=
  let b := (u - tyUnit t).toNat * 2 ^ tyFrac t + q
  if b ≤ tyMaxBits t then (signBit t neg + b, {})
  else ((if tyHasInf t then tyInfBits t else tyMaxBits t) + signBit t neg, { overflow := true })

/-- An exact value rounded once to a floating-point type. -/
def roundFloat (t : Nat) (neg : Bool) (m : Nat) (e : Int) : Nat × Raised :=
  if m = 0 then (signBit t neg, {})
  else
    let u := roundUnit t m e
    packNum t neg (if u ≤ e then m * 2 ^ (e - u).toNat else shiftRne m (u - e).toNat) u

/-- An exact value rounded once to an integer type, saturating (R246). -/
def roundInt (t : Nat) (neg : Bool) (m : Nat) (e : Int) : Nat × Raised :=
  let w := tyWidth t
  let q := if 0 ≤ e then m * 2 ^ e.toNat else shiftRne m (-e).toNat
  if neg then
    (if q > 2 ^ (w - 1) then (2 ^ (w - 1), { overflow := true }) else ((2 ^ w - q) % 2 ^ w, {}))
  else if q ≥ 2 ^ (w - 1) then (2 ^ (w - 1) - 1, { overflow := true }) else (q, {})

/-- A number as a type holds it: rounding, overflow and saturation, and NaN where the type has none. -/
def encodeNum (t : Nat) (x : Num) : Nat × Raised :=
  match x with
  | .nan => if tyInt t || t == 5 then (0, { invalid := true }) else (tyNan t, {})
  | .inf neg =>
    if tyInt t then (if neg then 2 ^ (tyWidth t - 1) else 2 ^ (tyWidth t - 1) - 1, { overflow := true })
    else if tyHasInf t then (tyInfBits t + signBit t neg, {})
    else (tyMaxBits t + signBit t neg, { overflow := true })
  | .fin neg m e => if tyInt t then roundInt t neg m e else roundFloat t neg m e

/-! ### Exact arithmetic -/

def Num.isNan : Num → Bool
  | .nan => true
  | _ => false

def Num.isNegInf : Num → Bool
  | .inf n => n
  | _ => false

def Num.isPosInf : Num → Bool
  | .inf n => !n
  | _ => false

/-- The signed mantissa of a finite number at exponent `u`, at or below its own. -/
def Num.at (u : Int) : Num → Int
  | .fin neg m e => (if neg then -1 else 1) * ((m * 2 ^ (e - u).toNat : Nat) : Int)
  | _ => 0

/-- Exponent of a finite number. -/
def Num.exp : Num → Int
  | .fin _ _ e => e
  | _ => 0

/-- A zero with its sign set. -/
def Num.isNegZero : Num → Bool
  | .fin neg m _ => neg && m == 0
  | _ => false

/-- Smallest exponent of a list of numbers. -/
def minExp : List Num → Int
  | [] => 0
  | [x] => x.exp
  | x :: l => min x.exp (minExp l)

/-- The exact sum of numbers; a NaN operand, or infinities of both signs, is invalid; a zero sum is −0 only of −0s. -/
def exactSum (l : List Num) : Num × Raised :=
  if l.any Num.isNan || (l.any Num.isPosInf && l.any Num.isNegInf) then (.nan, { invalid := true })
  else if l.any Num.isPosInf then (.inf false, {})
  else if l.any Num.isNegInf then (.inf true, {})
  else
    let u := minExp l
    let v := (l.map (Num.at u)).foldl (· + ·) 0
    (.fin (if v = 0 then !l.isEmpty && l.all Num.isNegZero else decide (v < 0)) v.natAbs u, {})

/-- The exact product; 0 × ∞ and a NaN operand are invalid. -/
def exactMul : Num → Num → Num × Raised
  | .nan, _ => (.nan, { invalid := true })
  | _, .nan => (.nan, { invalid := true })
  | .inf a, .inf b => (.inf (a != b), {})
  | .inf a, .fin b m _ => if m = 0 then (.nan, { invalid := true }) else (.inf (a != b), {})
  | .fin a m _, .inf b => if m = 0 then (.nan, { invalid := true }) else (.inf (a != b), {})
  | .fin a m e, .fin b n f => (.fin (a != b) (m * n) (e + f), {})

def Num.neg : Num → Num
  | .nan => .nan
  | .inf a => .inf (!a)
  | .fin a m e => .fin (!a) m e

/-- Order of two numbers that are not NaN: a sum's sign. -/
def numLt (a b : Num) : Bool :=
  match a, b with
  | .nan, _ => false
  | _, .nan => false
  | .inf x, .inf y => x && !y
  | .inf x, _ => x
  | _, .inf y => !y
  | x, y => decide (Num.at (min x.exp y.exp) x < Num.at (min x.exp y.exp) y)

def numEq (a b : Num) : Bool := !a.isNan && !b.isNan && !numLt a b && !numLt b a

/-! ### Element operations (R244 to R247) -/

/-- Encodes an exact result and adds what the operation raised. -/
def pack (t : Nat) (x : Num × Raised) : Nat × Raised :=
  let (v, r) := encodeNum t x.1
  (v, x.2.or r)

/-- Integer operations wrap modulo 2^width. -/
def wrapInt (t : Nat) (x : Int) : Nat := (x % (2 ^ tyWidth t : Nat)).toNat

def elAdd (t a b : Nat) : Nat × Raised :=
  if tyInt t then (wrapInt t (signedOf (tyWidth t) a + signedOf (tyWidth t) b), {})
  else pack t (exactSum [decodeNum t a, decodeNum t b])

def elSub (t a b : Nat) : Nat × Raised :=
  if tyInt t then (wrapInt t (signedOf (tyWidth t) a - signedOf (tyWidth t) b), {})
  else pack t (exactSum [decodeNum t a, (decodeNum t b).neg])

def elMul (t a b : Nat) : Nat × Raised :=
  if tyInt t then (wrapInt t (signedOf (tyWidth t) a * signedOf (tyWidth t) b), {})
  else pack t (exactMul (decodeNum t a) (decodeNum t b))

/-- vd + va × vb, one rounding. -/
def elFma (t d a b : Nat) : Nat × Raised :=
  if tyInt t then (wrapInt t (signedOf (tyWidth t) d + signedOf (tyWidth t) a * signedOf (tyWidth t) b), {})
  else
    let (p, r) := exactMul (decodeNum t a) (decodeNum t b)
    let (x, q) := exactSum [decodeNum t d, p]
    pack t (x, r.or q)

/-- Maximum (`up`) or minimum: the other operand where exactly one is NaN; −0 below +0. -/
def elMaxMin (t : Nat) (up : Bool) (a b : Nat) : Nat × Raised :=
  let x := decodeNum t a
  let y := decodeNum t b
  let r : Raised := { invalid := x.isNan || y.isNan }
  if x.isNan && y.isNan then (tyNan t, r)
  else if x.isNan then (b, r)
  else if y.isNan then (a, r)
  else
    let less := numLt x y || (numEq x y && x.isNegZero && !y.isNegZero)
    (if less == up then b else a, r)

/-- Conditions of VCMP: 0 eq, 1 lt, 2 le, 3 ne; NaN compares false except ne. -/
def elCmp (t cond a b : Nat) : Bool × Raised :=
  let x := decodeNum t a
  let y := decodeNum t b
  let n := x.isNan || y.isNan
  let v := match cond with
    | 0 => numEq x y
    | 1 => numLt x y
    | 2 => numLt x y || numEq x y
    | _ => !numEq x y
  (v, { invalid := n })

/-- Conversion of one element (R246). -/
def elCvt (src dst v : Nat) : Nat × Raised :=
  let x := decodeNum src v
  pack dst (x, { invalid := x.isNan })

/-- A scale of an MX block: 2^(e_a + e_b − 254), or NaN where either is 0xFF (R247). -/
def scaleNum (ea eb : Nat) (x : Num) : Num :=
  if ea = 0xFF ∨ eb = 0xFF then .nan
  else match x with
    | .fin neg m e => .fin neg m (e + (ea : Int) + (eb : Int) - 254)
    | y => y

/-- One element of VDOT: the products' exact sum, scaled, added to the FP32 element and rounded once; integers wrap. -/
def elDot (t : Nat) (ea eb : Nat) (d : Nat) (pairs : List (Nat × Nat)) : Nat × Raised :=
  let e := tyElement t
  if tyInt t then
    let s := (pairs.map (fun p => signedOf (tyWidth t) p.1 * signedOf (tyWidth t) p.2)).foldl (· + ·) 0
    (wrapInt 6 (signedOf 32 d + s), {})
  else
    let ps := pairs.map (fun p => exactMul (decodeNum e p.1) (decodeNum e p.2))
    let r := (ps.map (fun p => p.2)).foldl Raised.or {}
    let (sum, q) := exactSum (ps.map (fun p => p.1))
    let scaled := if t ≥ 9 then scaleNum ea eb sum else sum
    let (x, u) := exactSum [decodeNum 0 d, scaled]
    pack 0 (x, (r.or q).or u)

/-- Sum of elements: exact, one rounding to FP32, or INT32 modulo 2^32 (VRSUM). -/
def elSum (t : Nat) (l : List Nat) : Nat × Raised :=
  if tyInt t then (wrapInt 6 ((l.map (signedOf (tyWidth t))).foldl (· + ·) 0), {})
  else pack 0 (exactSum (l.map (decodeNum t)))

/-! ### VEXP2 and VRCP (R248) -/

/-- The largest r of at most `k` bits with r² ≤ n. -/
def sqrtBits : Nat → Nat → Nat → Nat
  | 0, _, r => r
  | k + 1, n, r => if (r + 2 ^ k) * (r + 2 ^ k) ≤ n then sqrtBits k n (r + 2 ^ k) else sqrtBits k n r

/-- 2^(F ÷ 2^k) in units of 2^−128, rounded down: one factor 2^(2^−j) for each bit of F from the highest on. -/
def exp2Frac : Nat → Nat → Nat → Nat → Nat
  | 0, _, _, acc => acc
  | k + 1, f, c, acc =>
    let c := sqrtBits 130 (c * 2 ^ 128) 0
    exp2Frac k (f % 2 ^ k) c (if f / 2 ^ k = 1 then acc * c / 2 ^ 128 else acc)

/-- The neighbour below (in magnitude), or the one above, of m · 2^e in FP32: exact where m · 2^e is representable. -/
def faithful (op arg : Nat) (neg : Bool) (m : Nat) (e : Int) (inexact : Bool) : Nat × Raised :=
  let u := roundUnit 0 m e
  let q := if u ≤ e then m * 2 ^ (e - u).toNat else m / 2 ^ (u - e).toNat
  let cut := !(decide (u ≤ e)) && decide (m % 2 ^ (u - e).toNat ≠ 0)
  packNum 0 neg (if (inexact || cut) && Config.roundsUp op arg then q + 1 else q) u

/-- 2^x in FP32: faithful, which of the two neighbours being open. -/
def elExp2 (a : Nat) : Nat × Raised :=
  match decodeNum 0 a with
  | .nan => (tyNan 0, { invalid := true })
  | .inf neg => (if neg then 0 else tyInfBits 0, {})
  | .fin neg m e =>
    if m = 0 then (0x3F800000, {})
    else if e + (bitLen m : Int) > 9 then
      (if neg then faithful 0 a false 1 (-1000) true else (tyInfBits 0, { overflow := true }))
    else
      let k := (-e).toNat
      let n : Int := (if neg then -1 else 1) * ((m * 2 ^ e.toNat : Nat) : Int)
      let i := n.ediv (2 ^ k : Nat)
      let f := (n.emod (2 ^ k : Nat)).toNat
      faithful 0 a false (exp2Frac k f (2 ^ 129) (2 ^ 128)) (i - 128) (f != 0)

/-- 1 ÷ x in FP32: faithful. -/
def elRcp (a : Nat) : Nat × Raised :=
  match decodeNum 0 a with
  | .nan => (tyNan 0, { invalid := true })
  | .inf neg => (signBit 0 neg, {})
  | .fin neg m e =>
    if m = 0 then (tyInfBits 0 + signBit 0 neg, {})
    else faithful 1 a neg (2 ^ 80 / m) (-80 - e) (2 ^ 80 % m != 0)

/-! ### Exact accumulators (R249 to R253) -/

/-- Mode of a type (Table 11-1); 0 where XADD does not allow it. -/
def accMode (t : Nat) : Nat :=
  if t ≤ 1 then 1 else if t = 2 then 2 else if t = 3 ∨ t = 4 then 3 else if t = 6 ∨ t = 7 then 4 else 0

/-- Exponent of the LSB weight, width, and contribution limit of a mode. -/
def accUnit (mode : Nat) : Int := if mode = 1 then -149 else if mode = 2 then -24 else if mode = 3 then -16 else 0
def accWidth (mode : Nat) : Nat := if mode = 1 then 320 else if mode = 2 then 96 else 64
def accLimit (mode : Nat) : Nat := if mode = 1 then 2 ^ 42 else if mode = 2 then 2 ^ 55 else if mode = 3 then 2 ^ 31 else 2 ^ 32

/-- A value held at the width of its mode, sign-extended. -/
def accValue (mode : Nat) (v : Int) : BitVec 320 :=
  BitVec.ofInt 320 (signedOf (accWidth mode) (v % (2 ^ accWidth mode : Nat)).toNat)

/-- XADD of one contribution: the state, and whether it sets flag [0] (R250). -/
def accAdd (a : Acc) (t v : Nat) (poison : Bool) : Acc × Bool :=
  let mode := accMode t
  let a := { a with poison := a.poison || poison }
  if a.mode != 0 && a.mode != mode then ({ a with mismatch := true }, true)
  else
    let x := decodeNum t v
    let n := a.count.toNat + 1
    let a := { a with
      mode := mode, count := BitVec.ofNat 64 n, limit := a.limit || decide (n > accLimit mode)
      nz := a.nz || !x.isNegZero || tyInt t }
    match x with
    | .nan => ({ a with nan := true }, false)
    | .inf neg => (if neg then { a with ninf := true } else { a with pinf := true }, false)
    | y => ({ a with value := accValue mode (a.value.toInt + Num.at (accUnit mode) y) }, false)

/-- Merging two states (R252). -/
def accMerge (a b : Acc) : Acc :=
  if b = {} then a
  else if a = {} then b
  else
    let bits : Acc := { a with
      nan := a.nan || b.nan, pinf := a.pinf || b.pinf, ninf := a.ninf || b.ninf, nz := a.nz || b.nz
      poison := a.poison || b.poison, limit := a.limit || b.limit, mismatch := a.mismatch || b.mismatch }
    if a.mode != b.mode then { bits with mismatch := true }
    else
      let n := a.count.toNat + b.count.toNat
      { bits with
        value := accValue a.mode (a.value.toInt + b.value.toInt), count := BitVec.ofNat 64 n
        limit := bits.limit || decide (n > accLimit a.mode) }

/-- XRND to a type (R253). -/
def accRound (a : Acc) (t : Nat) : Nat × Raised :=
  let p : Raised := { poison := a.poison }
  if a.mismatch || a.limit || a.nan || (a.pinf && a.ninf) then (if tyInt t then 0 else tyNan t, { p with invalid := true })
  else if a.pinf || a.ninf then
    let (v, r) := encodeNum t (.inf a.ninf)
    (v, p.or r)
  else if a.value = 0 then (if !tyInt t && a.count != 0 && !a.nz then signBit t true else 0, p)
  else
    let (v, r) := encodeNum t (.fin (decide (a.value.toInt < 0)) a.value.toInt.natAbs (accUnit a.mode))
    (v, p.or r)

/-- The 64 B of a state (Table 11-2). -/
def accBits (a : Acc) : BitVec 512 :=
  let f := [a.nan, a.pinf, a.ninf, a.nz, a.poison, a.limit, a.mismatch].zipIdx.foldl (fun n x => if x.1 then n + 2 ^ x.2 else n) 0
  BitVec.ofNat 512 (a.value.toNat + a.count.toNat * 2 ^ 320 + a.mode * 2 ^ 384 + f * 2 ^ 392)

/-- A state as XLOAD reads it; a mode above 4 or a nonzero reserved field gives the empty one and sets flag [0] (R251). -/
def accOf (b : BitVec 512) : Acc × Bool :=
  let n := b.toNat
  let mode := n / 2 ^ 384 % 256
  let f := n / 2 ^ 392 % 256
  if mode > 4 ∨ f ≥ 128 ∨ n / 2 ^ 400 ≠ 0 then ({}, true)
  else
    ({ value := BitVec.ofNat 320 n, count := BitVec.ofNat 64 (n / 2 ^ 320), mode := mode
       nan := f % 2 == 1, pinf := f / 2 % 2 == 1, ninf := f / 4 % 2 == 1, nz := f / 8 % 2 == 1
       poison := f / 16 % 2 == 1, limit := f / 32 % 2 == 1, mismatch := f / 64 % 2 == 1 }, false)

end Sys2Proof.Machine
end

