-- ==== Sys2Proof/Machine/Coded.lean ====
section
/-!
DEFINITION. Machine/Coded.lean: coded chunks of MX elements (R270 to R272), and numbers added
exactly in wide mode.
-/

namespace Sys2Proof.Machine

/-! ### MX elements -/

/-- Element code of an MX type, and its symbol width. -/
def mxElement (t : Nat) : Nat := tyElement t
def mxBits (t : Nat) : Nat := if t = 0xB then 4 else 8

/-- A number beyond the largest finite FP32 counts as infinity of its sign (R271). -/
def capFp32 : Num → Num
  | .fin neg m e => if numLt (.fin false ((2 ^ 24 - 1)) 104) (.fin false m e) then .inf neg else .fin neg m e
  | x => x

/-- The value of an element under its block's scale. -/
def mxValue (t v scale : Nat) : Num :=
  if scale = 0xFF then .nan
  else match decodeNum (mxElement t) v with
    | .fin neg m e => capFp32 (.fin neg m (e + (scale : Int) - 127))
    | x => x

/-- Frequencies of table `i` of a table set, if it passes R186 for symbols of `w` bits. -/
def setFreqs (set_ : List Byte) (w i : Nat) : Option (List Nat) :=
  let t := (set_.drop (528 * i)).take 528
  if t.length = 528 && tableValid t w then some (tableFreqs t (2 ^ w)) else none

/-- Cuts bytes into pieces of the given lengths. -/
def cutAt : List Nat → List Byte → List (List Byte)
  | [], _ => []
  | n :: l, b => b.take n :: cutAt l (b.drop n)

/-- All results, or none. -/
def allSome {α : Type} : List (Option α) → Option (List α)
  | [] => some []
  | none :: _ => none
  | some a :: l => (allSome l).map (fun r => a :: r)

/-- The elements that a coded chunk (Table 11-8) of type `t` with at most `c` of them holds; none where it cannot be decoded. -/
def chunkSymbols (set_ : List Byte) (t c : Nat) (b : List Byte) : Option (List Nat) :=
  let idx := leAt b 2 1
  let e := leAt b 4 2
  let w := mxBits t
  let body := b.drop (24 + e / 32)
  let nsym := e
  let lens := (List.range 8).map fun k => leAt b (8 + 2 * k) 2
  if leAt b 0 2 ≠ 4 ∨ e % 32 ≠ 0 ∨ e > c ∨ b.length < 24 + e / 32 ∨ (16 ≤ idx ∧ idx ≠ 0xFF) then none
  else
    if idx = 0xFF then
      (if body.length < e * w / 8 then none else some (symbolsOf w (body.take (e * w / 8))))
    else match setFreqs set_ w idx with
      | none => none
      | some fs =>
        if body.length < lens.sum then none
        else (allSome ((cutAt lens body).zipIdx.map fun x => ransDecode fs ((nsym + 7 - x.2) / 8) x.1)).map (fun subs => interleave subs nsym)

/-- The numbers that a coded chunk stands for: each element under its block's scale (R271). -/
def decodeChunk (set_ : List Byte) (t c : Nat) (b : List Byte) : Option (List Num) :=
  (chunkSymbols set_ t c b).map fun l => l.zipIdx.map fun x => mxValue t x.1 (leAt b (24 + x.2 / 32) 1)

/-- floor(log2 v) of the largest magnitude of a block. -/
def topExp (l : List Num) : Option Int :=
  l.foldl (fun (m : Option Int) x => match x with
    | .fin _ a e => if a = 0 then m else
        let v := (bitLen a : Int) - 1 + e
        some (match m with
          | some u => max u v
          | none => v)
    | _ => m) none

/-- A number as an element, saturated to the largest finite. -/
def saturated (t : Nat) (x : Num) : Nat :=
  let (v, r) := encodeNum t x
  if r.overflow then (match x with
    | .fin neg _ _ => tyMaxBits t + signBit t neg
    | _ => v) else v

/-- A block of 32 numbers as a scale and elements (R272). -/
def mxBlock (t : Nat) (l : List Num) : Nat × List Nat :=
  let el := mxElement t
  let eMax : Int := if t = 0x9 then 8 else if t = 0xA then 15 else 2
  if l.any (fun x => x.isNan || x.isPosInf || x.isNegInf) then (0xFF, l.map (fun _ => 0))
  else match topExp l with
    | none => (0, l.map (fun _ => 0))
    | some m =>
      let scale := clampNat 0 254 (m - eMax + 127).toNat
      (scale, l.map fun x => match x with
        | .fin neg a e => saturated el (.fin neg a (e + 127 - (scale : Int)))
        | _ => 0)

/-- Pads numbers with zeros to a multiple of 32. -/
def padBlocks (l : List Num) : List Num := l ++ List.replicate ((32 - l.length % 32) % 32) (.fin false 0 0)

/-- A chunk of numbers coded with a table of the set, or raw (R272, Table 11-8). -/
def encodeChunk (set_ : List Byte) (t idx : Nat) (l : List Num) : List Byte :=
  let l := padBlocks l
  let w := mxBits t
  let blocks := (List.range (l.length / 32)).map fun i => mxBlock t ((l.drop (32 * i)).take 32)
  let scales := blocks.map fun x => BitVec.ofNat 8 x.1
  let els := blocks.flatMap fun x => x.2
  let raw := symbolBytes w els
  let head := fun (i : Nat) (lens : List Nat) =>
    leBytes 2 4 ++ leBytes 1 i ++ [0] ++ leBytes 2 l.length ++ [0, 0] ++ lens.flatMap (leBytes 2) ++ scales
  let subs : Option (List (List Byte)) := if idx ≥ 16 then none else match setFreqs set_ w idx with
    | none => none
    | some fs => allSome ((List.range 8).map fun k => ransEncode fs (everyEighth k els))
  match subs with
  | some ss =>
    if (ss.map List.length).sum ≤ raw.length then head idx (ss.map List.length) ++ ss.flatten
    else head 0xFF (List.replicate 8 0) ++ raw
  | none => head 0xFF (List.replicate 8 0) ++ raw

/-! ### Numbers and exact sums -/

/-- Adds a number exactly in wide mode (R250, R271). -/
def accAddNum (a : Acc) (x : Num) (poison : Bool) : Acc :=
  let n := a.count.toNat + 1
  let a := { a with
    poison := a.poison || poison, mode := 1, count := BitVec.ofNat 64 n, limit := a.limit || decide (n > accLimit 1)
    nz := a.nz || !x.isNegZero }
  match x with
  | .nan => { a with nan := true }
  | .inf neg => if neg then { a with ninf := true } else { a with pinf := true }
  | y => { a with value := accValue 1 (a.value.toInt + Num.at (accUnit 1) y) }

/-- The exact sum that a state holds (R253). -/
def accNum (a : Acc) : Num :=
  if a.mismatch || a.limit || a.nan || (a.pinf && a.ninf) then .nan
  else if a.pinf || a.ninf then .inf a.ninf
  else if a.value = 0 then .fin (a.count != 0 && !a.nz) 0 0
  else .fin (decide (a.value.toInt < 0)) a.value.toInt.natAbs (accUnit a.mode)

end Sys2Proof.Machine
end

