-- ==== Sys2Proof/Machine/Doorbell.lean ====
section
/-!
DEFINITION. Machine/Doorbell.lean: what a doorbell does to its ring (R201, R202).
-/

namespace Sys2Proof.Machine

def ringOf (s : State) (r : BitVec 12) : Option Ring := s.ledger.rings.find? (fun x => x.id == r)

def updRing (s : State) (r : BitVec 12) (f : Ring → Ring) : State :=
  { s with ledger := { s.ledger with rings := mapIf (fun x => x.id == r) f s.ledger.rings } }

/-- A tail doorbell on a ring. -/
def tailOn (v : BitVec 32) (x : Ring) : Ring :=
  if x.enabled && decide ((v - x.h).toNat ≤ 2 ^ x.d) then { x with tail := v } else { x with dbIgnored := x.dbIgnored + 1 }

/-- A head doorbell on a ring: a count past the records written takes the head to n_w and is counted. -/
def headOn (v : BitVec 32) (x : Ring) : Ring :=
  if !x.enabled then { x with dbIgnored := x.dbIgnored + 1 }
  else if (v - x.head).toNat ≤ (x.nw - x.head).toNat then { x with head := v }
  else { x with head := x.nw, dbIgnored := x.dbIgnored + 1 }

/-- A doorbell value on the ring that its delivery names: another ring in its ring field, or another kind, is ignored
and counted (Table 9-7). -/
def doorbellOn (v : Word) (x : Ring) : Ring :=
  if v.extractLsb' 44 12 != x.id then { x with dbIgnored := x.dbIgnored + 1 }
  else if bitsAt v 56 8 = 1 then tailOn (v.extractLsb' 0 32) x
  else if bitsAt v 56 8 = 2 then headOn (v.extractLsb' 0 32) x
  else { x with dbIgnored := x.dbIgnored + 1 }

/-- A SYNC_ST performed on an object is a doorbell of the fabric ring that names the object; a stale slot is read again (R205). -/
def objectBell (s : State) (n : Nat) (v : Word) : State :=
  match s.ledger.rings.find? (fun x => x.fabric && x.dbObj == n) with
  | some x => updRing s x.id (fun x => { doorbellOn v x with staleAt := none })
  | none => s

end Sys2Proof.Machine
end

