-- ==== Sys2Proof/Machine/Crypt.lean ====
section
/-!
DEFINITION. Machine/Crypt.lean: KMAC256 and its customisation strings, random values (R370), security fault records, and the
keys of stored data (R183, R189, R374, R383).
-/

namespace Sys2Proof.Machine

/-! ### Customisation strings of KMAC256 (chapters 8 and 16) -/

/-- The strings, by number: "MV7400 " and the word shown. -/
inductive Custom where
  | devid | alias_ | store | self | storage | pairM | pair | room | xts | lmac | linkHs | finI | finR | link | linkUpd
  | macsec | macsecUpd | bind | pkgTile | wrap | tile
  deriving DecidableEq, Repr

def Custom.num : Custom → Nat
  | .devid => 1
  | .alias_ => 2
  | .store => 3
  | .self => 4
  | .storage => 5
  | .pairM => 6
  | .pair => 7
  | .room => 8
  | .xts => 9
  | .lmac => 10
  | .linkHs => 11
  | .finI => 12
  | .finR => 13
  | .link => 14
  | .linkUpd => 15
  | .macsec => 16
  | .macsecUpd => 17
  | .bind => 18
  | .pkgTile => 19
  | .wrap => 20
  | .tile => 21

/-- KMAC256(K, X, L, S). -/
def kmac (w : Nat) (key : Nat) (x : List Byte) (c : Custom) : BitVec w := BitVec.ofNat w (Config.kmac key x w c.num)

/-- The bytes of a hash, in order. -/
def hashBytes (h : BitVec 384) : List Byte := leBytes 48 h.toNat

/-! ### Random values and security faults -/

/-- A random value (R370). -/
def draw (s : State) (bits : Nat) : State × Nat :=
  ({ s with keys := { s.keys with draws := s.keys.draws + 1 } }, Config.drbg s.keys.draws bits)

/-- A security fault record (Table 15-11), counted in `KEYS.STAT`. -/
def securityFault (s : State) (info : Nat) : State :=
  addFault { s with keys := { s.keys with secFaults := s.keys.secFaults + 1 } } (mkFault 0x04 1 info)

/-! ### Keys of stored data -/

/-- K_room (R374); none while its secret is absent. -/
def roomKey (s : State) (r : RoomId) : Option (BitVec 256) :=
  (if r = 0 then s.keys.sS else s.keys.sP).map fun k => kmac 256 k.toNat (leBytes 1 r.toNat) .room

/-- The XTS key pair and the MAC key of a room (R374). -/
def xtsKeys (k : BitVec 256) : BitVec 512 := kmac 512 k.toNat [] .xts
def macKey (k : BitVec 256) : BitVec 256 := kmac 256 k.toNat [] .lmac

/-- The key of a stored image: of the room's memory key, the salt and the tile's GFA (R189). -/
def roomTileKey (k : BitVec 256) (salt : BitVec 128) (g : Word) : BitVec 256 :=
  kmac 256 k.toNat (leBytes 16 salt.toNat ++ leBytes 8 g.toNat) .tile

/-- The key of tile `i` of a package (R383). -/
def pkgTileKey (kc : BitVec 256) (pkgId salt : BitVec 128) (i : Nat) : BitVec 256 :=
  kmac 256 kc.toNat (leBytes 16 salt.toNat ++ leBytes 16 pkgId.toNat ++ leBytes 8 i) .pkgTile

end Sys2Proof.Machine
end

