-- ==== Sys2Proof/Machine/Wire.lean ====
section
/-!
DEFINITION. Machine/Wire.lean: the bytes of a flit (R48 to R51, R58, R378), and the Reed-Solomon and CRC-64 codes.
-/

namespace Sys2Proof.Machine

/-! ### GF(2^8) with the field polynomial of R49 -/

/-- Product of two field elements. -/
def gfMul (a b : Nat) : Nat :=
  ((List.range 8).foldl (fun (p : Nat × Nat) i =>
    (if b / 2 ^ i % 2 = 1 then p.1 ^^^ p.2 else p.1, if p.2 * 2 ≥ 256 then (p.2 * 2) ^^^ 0x11D else p.2 * 2)) (0, a)).1

/-- α^i, where α is the element 2. -/
def gfPow : Nat → Nat
  | 0 => 1
  | i + 1 => gfMul (gfPow i) 2

/-- The generator with roots α^0 to α^(t - 1): its coefficients from the highest power down, without the leading 1. -/
def rsGenerator (t : Nat) : List Nat :=
  ((List.range t).foldl (fun (l : List Nat) i =>
    List.zipWith (· ^^^ ·) (l ++ [0]) (0 :: l.map (gfMul (gfPow i)))) [1]).tail

/-- The `t` check bytes of a message; its first byte is the coefficient of the highest power. -/
def rsCheck (t : Nat) (msg : List Byte) : List Byte :=
  let g := rsGenerator t
  (msg.foldl (fun (r : List Nat) b =>
    let f := b.toNat ^^^ r.headD 0
    List.zipWith (· ^^^ ·) (r.tail ++ [0]) (g.map (gfMul f))) (List.replicate t 0)).map (BitVec.ofNat 8)

/-! ### CRC-64 (R50) -/

def crc64Byte (c : BitVec 64) (b : Byte) : BitVec 64 :=
  (List.range 8).foldl (fun c _ => if c.getLsbD 63 then (c <<< 1) ^^^ 0x42F0E1EBA9EA3693#64 else c <<< 1)
    (c ^^^ (b.setWidth 64 <<< 56))

/-- CRC-64 with the ECMA-182 polynomial, most significant bit first, initial value and final XOR of all ones. -/
def crc64 (l : List Byte) : BitVec 64 := ~~~(l.foldl crc64Byte (BitVec.allOnes 64))

/-! ### Packets and flits as bytes (R48, R51, R58) -/

/-- Words 0 and 1 of a packet header (Table 3-5). -/
def headerWord0 (p : Packet) : Nat :=
  p.opcode.toNat * 2 ^ 56 + p.vc.toNat * 2 ^ 53 + p.ocls.toNat * 2 ^ 51 + p.ce.toNat * 2 ^ 50 + p.poison.toNat * 2 ^ 49
    + p.mcast.toNat * 2 ^ 48 + p.room.toNat * 2 ^ 40 + p.src.toNat * 2 ^ 22 + p.dst.toNat * 2 ^ 4 + p.hint.toNat

def headerWord1 (p : Packet) : Nat :=
  p.tag.toNat * 2 ^ 44 + p.epoch.toNat * 2 ^ 28 + p.len % 512 * 2 ^ 19 + p.hops % 32 * 2 ^ 14 + p.wcls.toNat * 2 ^ 12
    + p.cee.toNat * 2 ^ 11

/-- A packet in its slots: 32 B of header, most significant byte first, and the payload, zero-padded. -/
def packetBytes (p : Packet) : List Byte :=
  beBytes 8 (headerWord0 p) ++ beBytes 8 (headerWord1 p) ++ beBytes 8 p.w2.toNat ++ beBytes 8 p.w3.toNat
    ++ (p.data ++ List.replicate (16 * p.len - p.data.length) 0).take (16 * p.len)

/-- The flit header (Table 3-3). -/
def flitWord (f : TxFlit) : Nat :=
  f.seq.toNat * 2 ^ 52 + f.ack.toNat * 2 ^ 40 + f.kind % 4 * 2 ^ 38 + f.a.1 % 8 * 2 ^ 35 + f.a.2 % 2048 * 2 ^ 24
    + f.b.1 % 8 * 2 ^ 21 + f.b.2 % 2048 * 2 ^ 10 + f.firstHdr % 32 * 2 ^ 5 + f.abort.toNat * 2 ^ 4

/-- Bytes 8 to 407 of a flit: the slots it carries, then padding where a header would stand; all zero in other kinds. -/
def slotBytes (f : TxFlit) : List Byte :=
  match f.pkt with
  | some p => ((packetBytes p).drop (16 * f.first)).take (16 * f.slots) ++
      (if f.slots < 25 then 0xFF :: List.replicate (399 - 16 * f.slots) 0 else [])
  | none => if f.kind = 0 then 0xFF :: List.replicate 399 0 else List.replicate 400 0

/-- Codeword of byte `i` of a flit on a port of `n` lanes: A is 0, B is 1 (R49). -/
def codewordOf (n i : Nat) : Nat := i / n % 2

/-- Puts the parity bytes of the two codewords in their places, bytes 416 on. -/
def mergeParity (n : Nat) : Nat → Nat → List Byte → List Byte → List Byte
  | 0, _, _, _ => []
  | k + 1, i, a, b =>
    if codewordOf n i = 0 then a.headD 0 :: mergeParity n k (i + 1) a.tail b
    else b.headD 0 :: mergeParity n k (i + 1) a b.tail

/-- FEC: bytes 416 to 447 over bytes 0 to 415 (R49). -/
def fecBytes (n : Nat) (l : List Byte) : List Byte :=
  let part := fun c => (l.zipIdx.filter (fun x => codewordOf n x.2 == c)).map (fun x => x.1)
  mergeParity n 32 416 (rsCheck 16 (part 0)) (rsCheck 16 (part 1))

/-- The 448 B of a flit from its header and bytes 8 to 407: before the session is established with a CRC-64, afterwards
encrypted, with the tag truncated to its first 8 B (R50, R378). -/
def wireOf (lanes : Nat) (sess : Session) (hdr content : List Byte) : List Byte :=
  let body :=
    if sess.phase = 6 then
      let (c, t) := Config.gcmSeal sess.kTx (sess.ivTx ^^^ BitVec.ofNat 96 (sess.txCount % 2 ^ 64)) hdr content
      hdr ++ c ++ t.take 8
    else hdr ++ content ++ beBytes 8 (crc64 (hdr ++ content)).toNat
  body ++ fecBytes lanes body

end Sys2Proof.Machine
end

