-- ==== Sys2Proof/Machine/Image.lean ====
section
/-!
DEFINITION. Machine/Image.lean: what is stored of the pool (R180 to R185, R189): check bytes and marks, XTS lines and MAC units, coded
images, and the reading of a unit whose cells have changed (R182, R183, R191).
-/

namespace Sys2Proof.Machine

/-! ### Contents: of a head tile, or of the tile retained at a cut -/

/-- What a place of storage holds. -/
structure Contents where
  res : Residence
  room : RoomId
  slot : Option Nat
  image : Option Image
  sealedIdx : Option Nat
  cells : List Host.Cell
  marks : List (Nat × Mark)
  deriving DecidableEq, Repr

/-- The contents of a tile; none where there is none. -/
def contentsOf (s : State) (cut : Option (BitVec 32)) (tile : Nat) : Option Contents :=
  match extentOf s (tile / 32) with
  | none => none
  | some x => match cut with
    | none => (tileOf s tile).map fun t =>
        { res := t.res, room := x.room, slot := x.slot, image := t.image, sealedIdx := t.sealedIdx, cells := s.pool.mem, marks := s.pool.marks }
    | some c => (s.maps.retained.find? (fun r => r.cut == c && r.tile == tile && !r.released)).map fun r =>
        { res := r.res, room := x.room, slot := x.slot, image := r.image, sealedIdx := r.sealedIdx, cells := r.cells, marks := r.marks }

/-- Puts bytes and marks back in their place. -/
def putContents (s : State) (cut : Option (BitVec 32)) (tile : Nat) (cells : List Host.Cell) (marks : List (Nat × Mark)) : State :=
  match cut with
  | none => { s with pool := { s.pool with mem := cells, marks := marks } }
  | some c => { s with maps := { s.maps with
      retained := mapIf (fun r => r.cut == c && r.tile == tile) (fun r => { r with cells := cells, marks := marks }) s.maps.retained } }

/-- A residence whose tiles are stored as images. -/
def isCompressed (r : Residence) : Bool := r.tier != 0 && !r.lineAddressed

/-- The mark of a line in some contents. -/
def contentsMark (c : Contents) (line : Nat) : Option Mark := (c.marks.find? (fun m => m.1 == line)).map (fun m => m.2)

/-! ### Lines and MAC units (R183) -/

/-- K_room of some contents. -/
def contentsKey (s : State) (c : Contents) : BitVec 256 := (roomKey s c.room).getD 0

/-- The 64 B stored for a line: plain in tier 0, else its ciphertext under the line number as tweak. -/
def storedLine (s : State) (c : Contents) (line : Nat) : List Byte :=
  let d := readBytes c.cells (64 * line) 64
  if c.res.tier = 0 then d else Config.xtsSeal (xtsKeys (contentsKey s c)) (BitVec.ofNat 128 line) d

/-- The MAC of a line's ciphertext: over its GFA, the room, 7 zero bytes and the ciphertext. -/
def lineMac (s : State) (c : Contents) (line : Nat) (cipher : List Byte) : BitVec 128 :=
  Config.cmac (macKey (contentsKey s c)) (leBytes 8 (64 * line) ++ leBytes 1 c.room.toNat ++ List.replicate 7 0 ++ cipher)

/-- The MAC unit of a chunk of four lines. -/
def macUnit (s : State) (c : Contents) (chunk : Nat) : List Byte :=
  (List.range 4).flatMap fun j => leBytes 16 (lineMac s c (4 * chunk + j) (storedLine s c (4 * chunk + j))).toNat

/-! ### Images (R185, R189) -/

/-- The salt of an image, and its copy of the layout descriptor. -/
def imageSalt (l : List Byte) : BitVec 128 := BitVec.ofNat 128 (leAt l 8 16)
def imageLayout (l : List Byte) : BitVec 128 := BitVec.ofNat 128 (leAt l 24 16)

/-- The marks of a tile's lines become those of an image's bitmaps. -/
def imageMarks (l : List Byte) (tile : Nat) (marks : List (Nat × Mark)) : List (Nat × Mark) :=
  (List.range 1024).foldl (fun m j =>
    let bit := fun (a : Nat) => leAt l (a + j / 8) 1 / 2 ^ (j % 8) % 2 == 1
    putMark (1024 * tile + j) (if bit 64 then some .poisoned else if bit 192 then some .ownerLost else none) m) marks

/-- What an image opens to under a key: its form, salt, layout and table, and the tile; none where its tag fails or its body is not
that of a tile (R185, R191). -/
def openImage (key : BitVec 256) (l : List Byte) : Option (Image × List Byte) :=
  let n := leAt l 4 4
  let coded : Bool := leAt l 2 1 == 0
  let layout := imageLayout l
  match Config.gcmOpen key 0 (l.take 320) ((l.drop 320).take n) ((l.drop (320 + n)).take 16) with
  | none => none
  | some body =>
    let w := symbolBits (layout.toNat % 256)
    let tile := if coded then decodedBody (layout.toNat % 256) body else if body.length = 65536 then some body else none
    tile.map fun t =>
      ({ coded := coded, salt := imageSalt l, layout := layout, table := if coded then body.take (16 + 2 * 2 ^ w) else [] }, t)

/-- 128 B in which bit j stands for line j of a tile. -/
def lineBitmap (tile : Nat) (marks : List (Nat × Mark)) (k : Mark) : List Byte :=
  leBytes 128 ((marks.filter (fun m => m.1 / 1024 == tile && m.2 == k)).foldl (fun v m => v + 2 ^ (m.1 % 1024)) 0)

/-- The body of an image before encryption. -/
def imageBody (i : Image) (tile : List Byte) : List Byte :=
  if i.coded then (codedBody (i.layout.toNat % 256) i.table tile).getD tile else tile

/-- The header region (Table 8-5): it is authenticated, not encrypted. -/
def imageHead (c : Contents) (i : Image) (tile len : Nat) : List Byte :=
  let (fmt, at_) : Nat × Nat := match c.sealedIdx with
    | some k => (3, k)
    | none => (2, 65536 * tile)
  leBytes 2 fmt ++ leBytes 1 (if i.coded then 0 else 1) ++ [0] ++ leBytes 4 len ++ leBytes 16 i.salt.toNat ++ leBytes 16 i.layout.toNat
    ++ leBytes 8 at_ ++ List.replicate 16 0 ++ lineBitmap tile c.marks .poisoned ++ lineBitmap tile c.marks .ownerLost

/-- The key of an image: of its room (R189), or of the package that seals it (R383, R385). -/
def imageKey (s : State) (c : Contents) (i : Image) (tile : Nat) : BitVec 256 :=
  match c.sealedIdx, s.keys.pkgs.find? (fun p => some p.slot == c.slot) with
  | some k, some p => pkgTileKey p.key p.pkgId i.salt k
  | _, _ => roomTileKey (contentsKey s c) i.salt (tileGfa tile)

/-- The stored image: header, encrypted body, tag, zeros up to whole units. -/
def imageBytes (s : State) (c : Contents) (i : Image) (tile : Nat) : List Byte :=
  let body := imageBody i (readBytes c.cells (65536 * tile) 65536)
  let head := imageHead c i tile body.length
  let (ct, tag) := Config.gcmSeal (imageKey s c i tile) 0 head body
  let l := head ++ ct ++ tag
  l ++ List.replicate ((64 - l.length % 64) % 64) 0

/-! ### Check bytes and marks (R181, R182) -/

/-- The 64 data bytes of a stored unit, and its mark; none where no such unit is stored. -/
def unitData (s : State) (u : StoredUnit) : Option (List Byte × Option Mark) :=
  match contentsOf s u.cut u.tile with
  | none => none
  | some c => match u.kind with
    | .line => if isCompressed c.res || decide (1024 ≤ u.i) then none
        else some (storedLine s c (1024 * u.tile + u.i), contentsMark c (1024 * u.tile + u.i))
    | .mac => if c.res.tier == 0 || isCompressed c.res || decide (256 ≤ u.i) then none else some (macUnit s c (256 * u.tile + u.i), none)
    | .image => match if isCompressed c.res then c.image else none with
      | none => none
      | some i =>
        let l := (imageBytes s c i u.tile).drop (64 * u.i)
        if l.isEmpty then none else some (l.take 64, none)

/-- The unit address (R181). -/
def unitAddress (u : StoredUnit) : Nat :=
  match u.kind with
  | .line => 65536 * u.tile + 64 * u.i
  | .mac => 65536 * u.tile + 256 * u.i + 1
  | .image => 65536 * u.tile + 64 * u.i

/-- The byte that a mark repeats (R182). -/
def markByte : Option Mark → Nat
  | none => 0x00
  | some .poisoned => 0x6C
  | some .ownerLost => 0x93

/-- The 72 bytes of a stored unit as written: data, and check bytes XORed with the mark. -/
def unitBytes (u : StoredUnit) (d : List Byte) (m : Option Mark) : List Nat :=
  (d.map fun b => b.toNat) ++ (rsCheck 8 (leBytes 8 (unitAddress u) ++ d)).map fun b => b.toNat ^^^ markByte m

/-! ### Decoding (R182) -/

/-- α^p of stored byte `i` of 72: byte 71 is the coefficient of power 0. -/
def unitLocator (i : Nat) : Nat := gfPow (71 - i)

/-- The inverse of a nonzero element. -/
def gfInv (a : Nat) : Nat := (List.range 253).foldl (fun x _ => gfMul x a) a

/-- The eight syndromes of a word of coefficients, highest power first. -/
def syndromes (l : List Nat) : List Nat := (List.range 8).map fun j => l.foldl (fun a b => gfMul a (gfPow j) ^^^ b) 0

/-- Takes the error at locator `x` out of a run of syndromes, which gets one shorter. -/
def without (x : Nat) (l : List Nat) : List Nat := List.zipWith (fun a b => b ^^^ gfMul x a) l l.tail

/-- The determinant of an n by n matrix. -/
def gfDet : Nat → List (List Nat) → Nat
  | 0, _ => 1
  | n + 1, rows => (List.range (n + 1)).foldl (fun d k =>
      d ^^^ gfMul ((rows.headD []).getD k 0) (gfDet n (rows.tail.map fun r => r.eraseIdx k))) 0

/-- The coefficients, lowest power first, of the polynomial whose roots are the locators of `n` errors: the maximal minors of the first
`n` windows of the syndromes. -/
def locatorPoly (syn : List Nat) (n : Nat) : List Nat :=
  let rows := (List.range n).map fun i => (syn.drop i).take (n + 1)
  (List.range (n + 1)).map fun k => gfDet n (rows.map fun r => r.eraseIdx k)

/-- The stored bytes at the roots of a polynomial. -/
def rootsOf (poly : List Nat) : List Nat :=
  (List.range 72).filter fun p => poly.foldr (fun c v => c ^^^ gfMul v (unitLocator p)) 0 == 0

/-- At most three stored bytes whose errors explain the syndromes. -/
def locate (syn : List Nat) : Option (List Nat) :=
  (([0, 1, 2, 3].map fun n => (n, rootsOf (locatorPoly syn n))).find? fun x =>
    x.2.length == x.1 && (x.2.foldl (fun l p => without (unitLocator p) l) syn).all (· == 0)).map fun x => x.2

/-- The error in byte `p` of those found. -/
def errorAt (syn ps : List Nat) (p : Nat) : Nat :=
  let others := ps.filter (· != p)
  gfMul ((others.foldl (fun l q => without (unitLocator q) l) syn).headD 0)
    (gfInv (others.foldl (fun a q => gfMul a (unitLocator p ^^^ unitLocator q)) 1))

/-- What a read takes for a word of 72 bytes: data, mark, and how many bytes it corrected; none where the unit is uncorrectable. -/
def decodeUnit (u : StoredUnit) (w : List Nat) : Option (List Byte × Option Mark × Nat) :=
  [none, some Mark.poisoned, some Mark.ownerLost].findSome? fun m =>
    let v := w.take 64 ++ (w.drop 64).map (· ^^^ markByte m)
    let syn := syndromes (((leBytes 8 (unitAddress u)).map fun b => b.toNat) ++ v)
    (locate syn).map fun ps =>
      ((v.take 64).zipIdx.map fun x => BitVec.ofNat 8 (if ps.contains x.2 then x.1 ^^^ errorAt syn ps x.2 else x.1), m, ps.length)

/-! ### Reading a unit -/

/-- What a read found a unit to be. -/
inductive UnitFound where
  | sound | corrected | poisoned
  deriving DecidableEq, Repr

/-- The fault record of an uncorrectable unit (Table 15-11, kind 0x03). -/
def uncorrectable (s : State) (g : Word) (r : Residence) : State :=
  addFault s { mkFault 0x03 1 (g.toNat + r.tier * 2 ^ 64) with room := match extentOf s (extKey g) with
    | some x => x.room
    | none => 0 }

/-- A line is rewritten with the poison mark; `forged` says that its MAC did not match (R182, R183). -/
def poisonLine (s : State) (u : StoredUnit) (c : Contents) (line : Nat) (forged : Bool) : State :=
  let s := uncorrectable (putContents s u.cut u.tile c.cells (putMark line (some .poisoned) c.marks)) (lineGfa line) c.res
  if forged then securityFault s (lineGfa line).toNat else s

/-- A tile whose image is unreadable: zero data and every line poisoned, in raw form (R191). -/
def poisonContents (s : State) (cut : Option (BitVec 32)) (tile : Nat) (c : Contents) (forged : Bool) : State :=
  let marks := ((List.range 1024).map (fun i => 1024 * tile + i)).foldl (fun m l => putMark l (some .poisoned) m) c.marks
  let s := uncorrectable (putContents s cut tile (clearRange c.cells (65536 * tile) 65536) marks) (tileGfa tile) c.res
  let (s, salt) := draw s 128
  let raw := fun (i : Option Image) => i.map fun i => { i with coded := false, salt := BitVec.ofNat 128 salt, table := [] }
  let s := match cut with
    | none => updTile s tile fun t => { t with
        image := if isCompressed c.res then some { coded := false, salt := BitVec.ofNat 128 salt, layout := t.layout, table := [] } else t.image }
    | some k => { s with maps := { s.maps with
        retained := mapIf (fun r => r.cut == k && r.tile == tile) (fun r => { r with image := raw r.image }) s.maps.retained } }
  if forged then securityFault s (tileGfa tile).toNat else s

/-- `poisonContents` of a head tile. -/
def poisonTile (s : State) (tile : Nat) (forged : Bool) : State :=
  match contentsOf s none tile with
  | some c => poisonContents s none tile c forged
  | none => s

/-- A read took other data or another mark than was written for a line: it stands from now on, unless the MAC tells (R183). -/
def alterLine (s : State) (u : StoredUnit) (c : Contents) (d : List Byte) (m : Option Mark) : State × UnitFound :=
  let line := 1024 * u.tile + u.i
  let put := fun (plain : List Byte) => putContents s u.cut u.tile (writeBytes c.cells (64 * line) plain) (putMark line m c.marks)
  if c.res.tier = 0 then (put d, .corrected)
  else if lineMac s c line d ≠ lineMac s c line (storedLine s c line) then (poisonLine s u c line true, .poisoned)
  else (put (Config.xtsOpen (xtsKeys (contentsKey s c)) (BitVec.ofNat 128 line) d), .corrected)

/-- A read took other MACs than were written for a chunk: the lines whose MAC differs are poisoned. -/
def alterMac (s : State) (u : StoredUnit) (d : List Byte) : State :=
  ((List.range 4).map (fun j => (1024 * u.tile + 4 * u.i + j, leAt d (16 * j) 16))).foldl (fun s x =>
    match contentsOf s u.cut u.tile with
    | none => s
    | some c => if (lineMac s c x.1 (storedLine s c x.1)).toNat = x.2 then s else poisonLine s u c x.1 true) s

/-- A read took other data than was written for a unit of an image: the tag tells (R191). -/
def alterImage (s : State) (u : StoredUnit) (c : Contents) (i : Image) (d : List Byte) (errors : Nat) : State × UnitFound :=
  let l := imageBytes s c i u.tile
  let got := l.take (64 * u.i) ++ d ++ l.drop (64 * u.i + 64)
  match openImage (imageKey s c { i with salt := imageSalt got } u.tile) got with
  | some (_, tile) => (putContents s u.cut u.tile (writeBytes c.cells (65536 * u.tile) tile) c.marks, .corrected)
  | none => (poisonContents s u.cut u.tile c (errors == 0), .poisoned)

/-- A read of a unit that cannot be corrected (R182, R191): a MAC unit's four lines can no longer be verified. -/
def loseUnit (s : State) (u : StoredUnit) (c : Contents) : State :=
  match u.kind with
  | .line => poisonLine s u c (1024 * u.tile + u.i) false
  | .mac => (List.range 4).foldl (fun s j => match contentsOf s u.cut u.tile with
      | some c => poisonLine s u c (1024 * u.tile + 4 * u.i + j) false
      | none => s) s
  | .image => poisonContents s u.cut u.tile c false

/-- A read takes `d` and mark `m` for a unit after correcting `n` bytes: what was written, or not. -/
def takeUnit (s : State) (u : StoredUnit) (c : Contents) (old : List Byte × Option Mark) (d : List Byte) (m : Option Mark) (n : Nat) :
    State × UnitFound :=
  let s := if n = 0 then s else { s with pool := { s.pool with corrected := s.pool.corrected + 1 } }
  let well : UnitFound := if n = 0 then .sound else .corrected
  if d = old.1 ∧ m = old.2 then (s, well)
  else match u.kind, c.image with
    | .line, _ => alterLine s u c d m
    | .mac, _ => if d = old.1 then (s, well) else (alterMac s u d, .poisoned)
    | .image, some i => if d = old.1 then (s, well) else alterImage s u c i d n
    | .image, none => (s, well)

/-- Reads one stored unit: what its cells hold is checked, corrected and written back (R182). -/
def checkUnit (s : State) (u : StoredUnit) : State × UnitFound :=
  match s.pool.upsets.find? (fun x => x.unit == u) with
  | none => (s, .sound)
  | some x =>
    let s := { s with pool := { s.pool with upsets := s.pool.upsets.filter (fun y => y.unit != u) } }
    match unitData s u, contentsOf s u.cut u.tile with
    | some old, some c =>
      let w := List.zipWith (· ^^^ ·) (unitBytes u old.1 old.2) ((leBytes 72 x.bits.toNat).map fun b => b.toNat)
      (match decodeUnit u w with
        | none => (loseUnit s u c, .poisoned)
        | some (d, m, n) => takeUnit s u c old d m n)
    | _, _ => (s, .sound)

/-- Reads units in turn: how many were corrected, and how many poisoned. -/
def checkUnits (s : State) (us : List StoredUnit) : State × Nat × Nat :=
  us.foldl (fun p u => match checkUnit p.1 u with
    | (s, .sound) => (s, p.2)
    | (s, .corrected) => (s, p.2.1 + 1, p.2.2)
    | (s, .poisoned) => (s, p.2.1, p.2.2 + 1)) (s, 0, 0)

/-- The units with changed cells that meet a test. -/
def upsetUnits (s : State) (p : StoredUnit → Bool) : List StoredUnit := (s.pool.upsets.map (fun x => x.unit)).filter p

/-- A read of a line at its place reads its own unit, its chunk's MAC unit, or the whole image (R183, R190). -/
def readsUnit (cut : Option (BitVec 32)) (line : Nat) (u : StoredUnit) : Bool :=
  u.cut == cut && u.tile == line / 1024 && (match u.kind with
    | .line => u.i == line % 1024
    | .mac => u.i == line % 1024 / 4
    | .image => true)

/-- What a read of a line does first. -/
def checkLine (s : State) (cut : Option (BitVec 32)) (line : Nat) : State := (checkUnits s (upsetUnits s (readsUnit cut line))).1

/-- What a porter's read of a tile does first (R192). -/
def checkTile (s : State) (cut : Option (BitVec 32)) (tile : Nat) : State :=
  (checkUnits s (upsetUnits s (fun u => u.cut == cut && u.tile == tile))).1

/-- The place of a tile's units is given up: nothing of them is left. -/
def dropUnits (s : State) (cut : Option (BitVec 32)) (tile : Nat) : State :=
  { s with pool := { s.pool with upsets := s.pool.upsets.filter (fun x => !(x.unit.cut == cut && x.unit.tile == tile)) } }

/-- Cells change: the changes add up; a unit that does not exist has none. -/
def addUpset (s : State) (x : Upset) : State :=
  if (unitData s x.unit).isNone then s
  else
    let old : BitVec 576 := match s.pool.upsets.find? (fun y => y.unit == x.unit) with
      | some y => y.bits
      | none => 0
    let rest := s.pool.upsets.filter (fun y => y.unit != x.unit)
    let bits := old ^^^ x.bits
    { s with pool := { s.pool with upsets := if bits = 0 then rest else rest ++ [{ x with bits := bits }] } }

end Sys2Proof.Machine
end

