-- ==== Sys2Proof/Machine/Space.lean ====
section
/-!
DEFINITION. Machine/Space.lean: capacity, quota and placement (R153 to R156, R169), retained tiles and copy-on-write
(R140, R141), and the writes of the pool that take both into account.
-/

namespace Sys2Proof.Machine

/-! ### Capacity and use, in tiles of 64 KiB -/

def tilesPerGiB : Nat := 16384
def tilesPerExtent : Nat := 32

/-- Retired channels of an HBM controller. -/
def retiredChannels (s : State) (c : Nat) : Nat :=
  ((List.range 8).filter (fun i => isRetired s 0x05 (8 * c + i))).length

/-- Channels over which a controller's lines lie (R64): eight, or those with which it returned to service (R172). -/
def channelsOf (s : State) (c : Nat) : List Nat :=
  match s.maps.inService.find? (fun x => x.1 == c) with
  | some x => x.2
  | none => List.range 8

/-- Tiles of one HBM controller: its channels of 3 GiB less its sixteenth of room 0x00's reservations (R153). -/
def hbmTiles (s : State) (c : Nat) : Nat :=
  if c < 16 && !isRetired s 0x06 c then
    (8 - retiredChannels s c) * 3 * tilesPerGiB - (backingGiB s + 4) * tilesPerGiB / 16
  else 0

def trayOf (s : State) (n : Nat) : Option Tray := s.maps.trays.find? (fun t => t.n == n)

/-- What a present tray declares for tier 1 or 2. -/
def trayDecl (s : State) (tier n : Nat) : Option TierDecl :=
  match trayOf s n with
  | some t => if t.present && !t.lost then (if tier = 1 then t.t1 else if tier = 2 then t.t2 else none) else none
  | none => none

/-- Tiles of one tray in a tier, less the fallback ledger extent (R154). -/
def trayTiles (s : State) (tier n : Nat) : Nat :=
  match trayDecl s tier n with
  | some d => d.capacity / 65536 - (if tier = 1 && ledgerExtPresent s && ledgerExtTray s == n then 512 * 32 else 0)
  | none => 0

/-- Tiles of a controller or tray in a tier. -/
def unitTiles (s : State) (tier u : Nat) : Nat := if tier = 0 then hbmTiles s u else trayTiles s tier u

/-- Number of units a tier may have. -/
def tierUnits (tier : Nat) : Nat := if tier = 0 then 16 else 64

/-- Capacity of a tier in tiles (R153, R154). -/
def tierTiles (s : State) (tier : Nat) : Nat :=
  if tier = 0 then
    (384 - (backingGiB s + 4)) * tilesPerGiB
      - ((List.range 128).filter (fun i => isRetired s 0x05 i)).length * 3 * tilesPerGiB
  else ((List.range 64).map (trayTiles s tier)).sum

/-- Quota capacity of a tier in extents: capacity less the snapshot reserve (R153, R154). -/
def quotaCapacity (s : State) (tier : Nat) : Nat := tierTiles s tier / 32 * (256 - snapRes s tier) / 256

/-- What has an owning residence and may move: a head tile (`cut` none), or the tile retained at a cut (R160). -/
structure Mover where
  key : Nat
  cut : Option (BitVec 32)
  res : Residence
  mig : Mig
  dest : Option Residence
  porter : Option Nat
  since : Nat
  tag : Option Tag
  work : Option Nat
  lost : Bool
  deriving DecidableEq, Repr

def headMover (t : Tile) : Mover :=
  { key := t.key, cut := none, res := t.res, mig := t.mig, dest := t.dest, porter := t.porter, since := t.since, tag := t.tag
    work := t.work, lost := t.lost }

def keptMover (y : Retained) : Mover :=
  { key := y.tile, cut := some y.cut, res := y.res, mig := y.mig, dest := y.dest, porter := y.porter, since := y.since, tag := y.tag
    work := y.work, lost := y.lost }

/-- Every mover, heads first. -/
def movers (s : State) : List Mover :=
  s.maps.tiles.map headMover ++ (s.maps.retained.filter (fun y => !y.released)).map keptMover

/-- The movers of one tile. -/
def moversOf (s : State) (key : Nat) : List Mover := (movers s).filter (fun m => m.key == key)

/-- Puts a mover back into its tile or retained tile; the dirty map lives as long as the move that it belongs to. -/
def putMover (s : State) (m : Mover) : State :=
  match m.cut with
  | none => updTile s m.key fun t => { t with
      res := m.res, mig := m.mig, dest := m.dest, porter := m.porter, since := m.since, tag := m.tag, work := m.work, lost := m.lost
      dirty := if m.mig == .moving || m.mig == .closing then t.dirty else [] }
  | some c => { s with maps := { s.maps with
      retained := mapIf (fun y => y.cut == c && y.tile == m.key) (fun y => { y with
        res := m.res, mig := m.mig, dest := m.dest, porter := m.porter, since := m.since, tag := m.tag, work := m.work
        lost := m.lost }) s.maps.retained } }

/-- A mover whose move is over, where it lies. -/
def idle (m : Mover) : Mover := { m with mig := .settled, dest := none, porter := none, tag := none, work := none }

/-- Where a mover takes up space: its residence, and the destination of its move. -/
def placesOf (m : Mover) : List Residence := m.res :: m.dest.toList

/-- Tiles that lie on a unit of a tier: heads, retained tiles, destinations of moves. -/
def unitUse (s : State) (tier u : Nat) : Nat :=
  (((movers s).flatMap placesOf).filter (fun d => d.tier == tier && d.unit == u)).length

def unitFree (s : State) (tier u : Nat) : Nat := unitTiles s tier u - unitUse s tier u

/-- The room that owns the extent of a tile. -/
def tileRoom (s : State) (tile : Nat) : RoomId :=
  match extentOf s (tile / 32) with
  | some x => x.room
  | none => 0

/-- Quota use of a room in a tier, in tiles: head and retained tiles, and destinations of moves (R169). -/
def quotaUse (s : State) (r : RoomId) (tier : Nat) : Nat :=
  ((((movers s).filter (fun m => tileRoom s m.key == r)).flatMap placesOf).filter (fun d => d.tier == tier)).length

/-- Quota of a slice in a tier, in extents. -/
def sliceQuota (y : Slice) (tier : Nat) : Nat := if tier = 0 then y.quota0 else if tier = 1 then y.quota1 else y.quota2

/-- Quota of a room at this switch, in extents (R464: the current epoch's slice). -/
def quotaOf (s : State) (r : RoomId) (tier : Nat) : Nat :=
  match sliceOf s r with
  | some y => sliceQuota y tier
  | none => 0

/-- Free quota of a room in tiles. -/
def quotaFree (s : State) (r : RoomId) (tier : Nat) : Nat := quotaOf s r tier * 32 - quotaUse s r tier

/-- Retained tiles of a room in a tier, and head tiles that rules 1 and 2 placed there, beyond its quota (R140, R141). -/
def overdraftIn (s : State) (r : RoomId) (tier : Nat) : Nat :=
  min ((s.maps.retained.filter (fun x => !x.released && x.res.tier == tier && tileRoom s x.tile == r)).length
      + (s.maps.tiles.filter (fun t => t.away && t.res.tier == tier && tileRoom s t.key == r)).length)
    (quotaUse s r tier - quotaOf s r tier * 32)

/-- Snapshot overdraft of a room, in tiles. -/
def overdraft (s : State) (r : RoomId) : Nat := overdraftIn s r 0 + overdraftIn s r 1 + overdraftIn s r 2

/-- Free snapshot reserve of a tier, in tiles (R141). -/
def reserveFree (s : State) (tier : Nat) : Nat :=
  tierTiles s tier * snapRes s tier / 256 - (s.rooms.rooms.map (fun r => overdraftIn s r.id tier)).sum

/-- The controllers or trays of a room's slice in a tier that are in service; a controller that is being emptied is not (R172). -/
def roomUnits (s : State) (r : RoomId) (tier : Nat) : List Nat :=
  match sliceOf s r with
  | some y =>
    if tier = 0 then (List.range 16).filter (fun c => y.hbm.getLsbD c && !isRetired s 0x06 c && !s.maps.evac.any (fun x => x.1 == c))
    else (List.range 64).filter (fun n => y.trays.getLsbD n && (trayDecl s tier n).isSome)
  | none => []

/-- R156 among some units: the one with the most free space, the lowest number on a tie, if it has `need` tiles. -/
def placeAmong (s : State) (units : List Nat) (tier need : Nat) : Option Nat :=
  match maxBy (unitFree s tier) units with
  | some u => if unitFree s tier u ≥ need then some u else none
  | none => none

/-- R156: the unit of the room with the most free space. -/
def placeOn (s : State) (r : RoomId) (tier need : Nat) : Option Nat := placeAmong s (roomUnits s r tier) tier need

/-- Whether the survival field allows a tier (Table 7-2). -/
def survivalAllows (survival tier : Nat) : Bool :=
  if survival = 1 then decide (tier = 1 ∨ tier = 2) else if survival = 2 then decide (tier = 0) else decide (tier ≤ 2)

/-! ### Versions and copy-on-write (R135 to R144) -/

def versionOf (s : State) (cut : BitVec 32) : Option Version := s.maps.versions.find? (fun v => v.cut == cut)

/-- The newest version that covers an extent: cut IDs rise, so it is the last of the list. -/
def newestVersion (s : State) (ext : Nat) : Option Version :=
  (s.maps.versions.filter (fun v => v.exts.contains ext)).getLast?

/-- Open handles of a version. -/
def versionHandles (s : State) (cut : BitVec 32) : Nat := (s.maps.handles.filter (fun h => h.cut == cut)).length

/-- The tile retained for a version: the first retained at this cut or a later one (R140, R143). -/
def retainedFor (s : State) (cut : BitVec 32) (tile : Nat) : Option Retained :=
  s.maps.retained.find? (fun r => r.tile == tile && decide (cut.toNat ≤ r.cut.toNat))

/-- Whether the next write to a tile is its first since the newest cut that covers it. -/
def firstWrite (s : State) (tile : Nat) : Bool :=
  match newestVersion s (tile / 32) with
  | some v => (retainedFor s v.cut tile).isNone
  | none => false

/-- The room's oldest version with a retained tile in a tier, handles closed or not (R141 rules 3 and 4). -/
def oldestRetained (s : State) (r : RoomId) (tier : Nat) (closedOnly : Bool) (u : Nat) : Option Retained :=
  let ok := fun (x : Retained) => !x.released && x.res.tier == tier && tileRoom s x.tile == r &&
    (!closedOnly || versionHandles s x.cut == 0)
  match s.maps.versions.find? (fun v => s.maps.retained.any (fun x => ok x && x.cut == v.cut)) with
  | some v => match s.maps.retained.find? (fun x => ok x && x.cut == v.cut && x.res.unit == u) with
    | some x => some x
    | none => s.maps.retained.find? (fun x => ok x && x.cut == v.cut)
  | none => none

/-- Releases a retained tile's space and marks its version partial (R141). -/
def releaseRetained (s : State) (x : Retained) : State :=
  { s with maps := { s.maps with
      retained := mapIf (fun y => y.cut == x.cut && y.tile == x.tile)
        (fun y => { y with released := true, cells := [], marks := [] }) s.maps.retained
      versions := mapIf (fun v => v.cut == x.cut) (fun v => { v with partialV := true }) s.maps.versions
      released := s.maps.released + 1 } }

/-- Another residence of the room for a head tile: rules 1 and 2 of R141. -/
def placeAway (s : State) (r : RoomId) (x : Extent) (res : Residence) : Option Residence :=
  match placeAmong s ((roomUnits s r res.tier).filter (· != res.unit)) res.tier 1 with
  | some u => some { res with unit := u }
  | none =>
    match ([1, 2].filter (fun t => decide (res.tier < t) && survivalAllows x.survival t)).find?
        (fun t => (placeOn s r t 1).isSome) with
    | some t => match placeOn s r t 1 with
      | some u => some { tier := t, unit := u, lineAddressed := x.lineAddressed && t == 1 }
      | none => none
    | none => none

/-- The residence of a new head tile, whether rule 1 or 2 placed it, and the state after any release of R141. -/
def newHead (s : State) (r : RoomId) (x : Extent) (res : Residence) : State × Residence × Bool :=
  if (quotaFree s r res.tier > 0 ∨ reserveFree s res.tier > 0) ∧ unitFree s res.tier res.unit > 0 then (s, res, false)
  else match placeAway s r x res with
    | some d => ({ s with maps := { s.maps with placedAway := s.maps.placedAway + 1 } }, d, true)
    | none => match oldestRetained s r res.tier true res.unit with
      | some y => (releaseRetained s y, { res with unit := y.res.unit }, false)
      | none => match oldestRetained s r res.tier false res.unit with
        | some y => (releaseRetained s y, { res with unit := y.res.unit }, false)
        | none => (s, res, false)

/-- A porter's pass has ended: its own request is no longer outstanding (R161, R465). -/
def freePorter (s : State) (p : Nat) : State :=
  { s with own := { s.own with sent := s.own.sent.filter (fun q => q.who != .porter p) } }

/-- Puts a mover into another state of its move; a porter that is passing over it is free. -/
def endMove (s : State) (m m' : Mover) : State :=
  putMover (match m.mig, m.porter with
    | .moving, some p => freePorter s p
    | _, _ => s) m'

/-- Copy-on-write before a write to a tile (R140): the version keeps the old tile and the head gets a new one; a
move of the head in Booked or Moving starts again at Booked (R167). -/
def cowBefore (s : State) (tile : Nat) : State :=
  if firstWrite s tile then
    match newestVersion s (tile / 32), tileOf s tile, extentOf s (tile / 32) with
    | some v, some t, some x =>
      let old : Retained :=
        { cut := v.cut, tile := tile, res := t.res, image := t.image, sealedIdx := t.sealedIdx
          cells := s.pool.mem.filter (fun c => c.1 / 2 ^ 16 == tile)
          marks := s.pool.marks.filter (fun m => m.1 / 1024 == tile) }
      let (s, d, away) := newHead s x.room x t.res
      let moved := mapIf (fun (y : Upset) => y.unit.cut.isNone && y.unit.tile == tile)
        (fun y => { y with unit := { y.unit with cut := some v.cut } }) s.pool.upsets
      let s := { s with maps := { s.maps with retained := s.maps.retained ++ [old] }, pool := { s.pool with upsets := moved } }
      let s := match t.mig, t.porter with
        | .moving, some p => freePorter s p
        | _, _ => s
      updTile s tile fun t => { t with
        res := d, cow := true, away := away, dirty := []
        porter := if t.mig == .moving then none else t.porter
        mig := if t.mig == .moving then .booked else t.mig }
    | _, _, _ => s
  else s

/-- What every write performed at the home does to its tile: copy-on-write, and the dirty map of a move (R161). -/
def touchTile (s : State) (g : Word) : State :=
  let s := cowBefore s (tileKey g)
  updTile s (tileKey g) fun t =>
    if t.mig == .moving || t.mig == .closing then
      (if t.dirty.contains (lineKey g % 1024) then t else { t with dirty := t.dirty ++ [lineKey g % 1024] })
    else t

/-- The bytes of a frequency table: read here, or from its home. -/
def readTable (s : State) (g : Word) (n : Nat) : List Byte :=
  if isHome s (homeOf g) then readBytes s.pool.mem g.toNat n
  else (List.range n).map fun i => Config.remoteByte (g.toNat + i)

/-- A tile held tile-compressed on a tray is encoded again under a new salt (R189): coded if its descriptor asks and the tile codes, else
raw; a raw image that was to be coded is counted for its room (R188, R190). -/
def recodeAt (s : State) (cut : Option (BitVec 32)) (tile : Nat) : State :=
  match tileOf s tile, contentsOf s cut tile with
  | some t, some c =>
    if !isCompressed c.res then s
    else
      let asks := t.layout.toNat / 2 ^ 16 % 256 == 1
      let f := t.layout.toNat % 256
      let bad := s.pool.marks.any (fun m => decide (t.table.toNat / 64 ≤ m.1) && decide (m.1 ≤ (t.table.toNat + 527) / 64))
      let table := readTable s t.table (16 + 2 * 2 ^ symbolBits f)
      let ok := asks && !bad && storesCoded f table (readBytes c.cells (tile * 65536) 65536)
      let (s, salt) := draw s 128
      let i : Image := { coded := ok, salt := BitVec.ofNat 128 salt, layout := t.layout, table := if ok then table else [] }
      let s := match cut with
        | none => updTile s tile fun t => { t with image := some i }
        | some k => { s with maps := { s.maps with
            retained := mapIf (fun y => y.cut == k && y.tile == tile) (fun y => { y with image := some i }) s.maps.retained } }
      if asks && !ok then updRoom s (tileRoom s tile) fun r => { r with raw := r.raw + 1 } else s
  | _, _ => s

/-- A head tile is encoded again. -/
def recode (s : State) (tile : Nat) : State := recodeAt s none tile

/-- Marks a line of the head: like a write, but for its data (R139, R140, R190). -/
def markLine (s : State) (line : Nat) (k : Option Mark) : State :=
  recode (setMark (touchTile s (lineGfa line)) line k) (line / 1024)

/-- Writes bytes of one line at the home. -/
def poolWrite (s : State) (g : Word) (data : List Byte) : State :=
  let s := touchTile (checkLine s none (lineKey g)) g
  recode { s with pool := { s.pool with mem := writeBytes s.pool.mem g.toNat data } } (tileKey g)

/-- A line request performed on a tile of a unified room adds 1 to its count (R158). -/
def countAccess (s : State) (g : Word) : State :=
  let unified : Bool := match roomOf s (tileRoom s (tileKey g)) with
    | some r => r.unified
    | none => false
  if unified then updTile s (tileKey g) fun t => { t with count := min 255 (t.count + 1) } else s

/-- Writes a whole line, as a whole-line ST: any poison is cleared (R83). -/
def poolWriteLine (s : State) (line : Nat) (data : List Byte) : State :=
  setMark (poolWrite s (lineGfa line) (data.take 64)) line none

/-- Reads bytes at the home. -/
def poolRead (s : State) (g : Word) (n : Nat) : List Byte := readBytes s.pool.mem g.toNat n

/-! ### Lost lines (R171, R172) -/

/-- The channel of a line at its home (R64): h_a mod c where lines are placed, h_t mod c in a tile-compressed tile; c is the
channel count of the controller or tray. -/
def channelOf (s : State) (r : Residence) (g : Word) : Nat :=
  if r.tier = 0 then (channelsOf s r.unit).getD (hashA g % max 1 (channelsOf s r.unit).length) 0
  else if r.lineAddressed then hashA g % max 1 (Config.trayChannels r.unit)
  else hashT g % max 1 (Config.trayChannels r.unit)

/-- Whether the place of a line in a residence is lost: its tray, its controller, or its HBM channel (R171). -/
def placeLost (s : State) (r : Residence) (g : Word) : Bool :=
  if r.tier = 0 then isRetired s 0x06 r.unit || isRetired s 0x05 (8 * r.unit + channelOf s r g)
  else match trayOf s r.unit with
    | some y => y.lost || !y.present
    | none => true

/-- Whether a line's residence is lost: its tile, or its place. -/
def lineLost (s : State) (g : Word) : Bool :=
  match tileOf s (tileKey g) with
  | none => false
  | some t => t.lost || placeLost s t.res g

/-! ### Reclaiming versions (R144) -/

/-- A version is live while it is newest for an extent or has an open handle. -/
def versionLive (s : State) (v : Version) : Bool :=
  v.exts.any (fun e => (newestVersion s e).map (fun w => w.cut) == some v.cut) || versionHandles s v.cut != 0

/-- The newest live version before `v` that still reads the tile retained at `v`. -/
def heir (s : State) (v : Version) (tile : Nat) : Option (BitVec 32) :=
  ((s.maps.versions.filter (fun w => decide (w.cut.toNat < v.cut.toNat) && w.exts.contains (tile / 32)
      && ((retainedFor s w.cut tile).map (fun r => r.cut) == some v.cut))).getLast?).map (fun w => w.cut)

/-- Reclaims every version that is no longer live; a tile that an older live version still reads stays for it. -/
def reclaim (s : State) : State :=
  match s.maps.versions.find? (fun v => !versionLive s v) with
  | none => s
  | some v =>
    let keep := s.maps.retained.filterMap fun r =>
      if r.cut == v.cut then (heir s v r.tile).map (fun c => { r with cut := c }) else some r
    { s with maps := { s.maps with retained := keep, versions := s.maps.versions.filter (fun w => w.cut != v.cut) } }

/-- `reclaim` until nothing more is reclaimed; each call removes one version. -/
def reclaimAll : Nat → State → State
  | 0, s => s
  | n + 1, s => reclaimAll n (reclaim s)

/-- R144 after any event that may end a version. -/
def reclaimVersions (s : State) : State := reclaimAll s.maps.versions.length s

end Sys2Proof.Machine
end

