-- ==== Sys2Proof/Machine/Ports.lean ====
section
/-!
DEFINITION. Machine/Ports.lean: ports and their egress queues, congestion marks (R71, R72), and what a packet for the agent
of a device-role flex port becomes (R403, Table 17-4). Ports are numbered 0 to 127 fabric, 128 to 143 bridge,
144 to 159 flex.
-/

namespace Sys2Proof.Machine

/-! ### Ports -/

def fabPort (s : State) (n : Nat) : Option FabPort := s.fab.ports.find? (fun p => p.id == n)

def updFab (s : State) (n : Nat) (f : FabPort → FabPort) : State :=
  { s with fab := { s.fab with ports := mapIf (fun p => p.id == n) f s.fab.ports } }

def brgPort (s : State) (n : Nat) : Option BrgPort := s.fab.brg.find? (fun p => p.id == n)

def updBrg (s : State) (n : Nat) (f : BrgPort → BrgPort) : State :=
  { s with fab := { s.fab with brg := mapIf (fun p => p.id == n) f s.fab.brg } }

def flexPort (s : State) (n : Nat) : Option FlexPort := s.fab.flex.find? (fun p => p.id == n)

def updFlex (s : State) (n : Nat) (f : FlexPort → FlexPort) : State :=
  { s with fab := { s.fab with flex := mapIf (fun p => p.id == n) f s.fab.flex } }

/-- Whether an egress port is up: a fabric or bridge port once its session is established (R50, R377). -/
def portUp (s : State) (n : Nat) : Bool :=
  if n < 128 then (match fabPort s n with
    | some p => p.up && p.sess.phase == 6
    | none => false)
  else if n < 144 then (match brgPort s (n - 128) with
    | some p => p.up && p.sess.phase == 6
    | none => false)
  else (match flexPort s (n - 144) with
    | some p => p.up && p.ideActive
    | none => false)

/-- Whether an agent attaches to a port (peer kind 0 of Table 19-5, or a device-role flex port). -/
def agentPort (s : State) (n : Nat) : Bool :=
  if n < 128 then fabPeer s n == 0 else s.fab.attach.any (fun a => a.port == n)

def attachOf (s : State) (a : AgentId) : Option Attach := s.fab.attach.find? (fun x => x.agent == a)

/-- Slots of a packet, header included. -/
def pktSlots (p : Packet) : Nat := 2 + p.len

/-- Payload rate of a port in bytes per ns: 25 for each fabric lane (Table 3-1); bridge lanes of 200 Gb/s alike. -/
def portRate (s : State) (n : Nat) : Nat :=
  if n < 128 then (match fabPort s n with
    | some p => 25 * max 1 p.lanes
    | none => 25)
  else (match brgPort s (n - 128) with
    | some p => 25 * max 1 p.lanes
    | none => 25)

/-- The queue of an egress port. -/
def portQueue (s : State) (n : Nat) : List Queued :=
  if n < 128 then (match fabPort s n with
    | some p => p.queue
    | none => [])
  else (match brgPort s (n - 128) with
    | some p => p.queue
    | none => [])

/-- Whether the queue of a channel holds more than its marking threshold (R71). -/
def overMark (s : State) (n : Nat) (vc : BitVec 3) : Bool :=
  decide (((portQueue s n).filter (fun x => x.pkt.vc == vc)).foldl (fun k x => k + 16 * pktSlots x.pkt) 0
    > markNs s n vc * portRate s n)

/-- A store of a partial write is acknowledged: the write completes with its last one (R403). -/
def flexAck (s : State) (k : Nat) (tag : Tag) : State :=
  match flexPort s k with
  | none => s
  | some q => match q.partials.find? (fun x => x.2.contains tag) with
    | none => say s (.cxl k tag false [])
    | some x =>
      let left := x.2.filter (· != tag)
      let rest := q.partials.filter (fun y => y.1 != x.1)
      let s := updFlex s k fun q => { q with partials := if left.isEmpty then rest else rest ++ [(x.1, left)] }
      if left.isEmpty then say s (.cxl k x.1 false []) else s

/-- A snoop passes to the host as a back-invalidate snoop (Table 17-4). -/
def passSnoop (s : State) (k : Nat) (p : Packet) : State :=
  let s := updFlex s k fun q => { q with
    snoops := q.snoops ++ [{ tag := p.tag, gfa := p.w2, home := p.src, room := p.room, epoch := p.epoch, wcls := p.wcls }]
    unique := if p.opcode = 0x72 then q.unique else q.unique.filter (· != lineKey p.w2) }
  say s (.biSnoop k (p.opcode.toNat - 0x70) p.tag (p.w2 - flexWin s k))

/-- Whether a read for caching of the port is outstanding on a line: a snoop of it is held (R116). -/
def flexReading (q : FlexPort) (line : Nat) : Bool :=
  (q.sent ++ q.again).any fun x => (x.pkt.opcode == 0x02 || x.pkt.opcode == 0x03) && lineKey x.pkt.w2 == line

/-- A snoop for the port's agent: held while the response to a caching read of its line is awaited (R116). -/
def flexSnoop (s : State) (k : Nat) (p : Packet) : State :=
  match flexPort s k with
  | none => s
  | some q => if flexReading q (lineKey p.w2) then updFlex s k fun q => { q with held := q.held ++ [p] } else passSnoop s k p

/-- Passes on the held snoops whose line is no longer awaited. -/
def releaseSnoops (s : State) (k : Nat) : State :=
  match flexPort s k with
  | none => s
  | some q =>
    let go := q.held.filter (fun p => !flexReading q (lineKey p.w2))
    go.foldl (fun s p => passSnoop s k p)
      (updFlex s k fun q => { q with held := q.held.filter (fun p => flexReading q (lineKey p.w2)) })

/-- The next gen on a tag of the port (R103). -/
def nextFlexGen (q : FlexPort) (t : Tag) : Gen :=
  match q.gens.find? (fun x => x.1 == t) with
  | some x => x.2 + 1
  | none => 0

/-- Tags of engines 0 to 63 that no request of the port uses (R97, R403). -/
def freeFlexTags (q : FlexPort) (n : Nat) : List Tag :=
  let used := (q.sent ++ q.again).map (fun x => x.pkt.tag)
  let all : List Tag := (List.range (used.length + n)).map fun i => BitVec.ofNat 20 (32767 - i)
  (all.filter (fun t => !used.contains t)).take n

/-- A stale request of the port goes out again with a new tag under the current epoch (R35). -/
def flexRetry (s : State) (k : Nat) (x : FlexSent) (epoch : Epoch) : State :=
  match flexPort s k with
  | none => s
  | some q =>
    let t := (freeFlexTags q 1).headD 0
    let g := nextFlexGen q t
    let w3 := (x.pkt.w3 &&& ~~~(fieldOf 48 4 15)) ||| fieldOf 48 4 g.toNat
    updFlex s k fun q => { q with
      again := q.again ++ [{ x with pkt := { x.pkt with tag := t, epoch := epoch, w3 := w3 }, flushed := false }]
      gens := q.gens.filter (fun y => y.1 != t) ++ [(t, g)] }

/-- A response for the port's agent becomes a CXL message (Table 17-4): a status other than 0x00 poisons read data, and a
write is completed whatever its status; a stale epoch makes the port ask again (R35). -/
def flexResponse (s : State) (k : Nat) (p : Packet) : State :=
  let asked : Option FlexSent := match flexPort s k with
    | some q => q.sent.find? (fun x => x.pkt.tag == p.tag)
    | none => none
  let s := updFlex s k fun q => { q with
    sent := q.sent.filter (fun x => x.pkt.tag != p.tag), epoch := if p.room = flexRoom s k then newerEpoch q.epoch p.epoch else q.epoch }
  let host := match asked with
    | some x => x.host
    | none => p.tag
  match asked, decide (bitsAt p.w3 56 8 = 8) with
  | some x, true => flexRetry s k x p.epoch
  | _, _ =>
    if p.opcode = 0x40 ∨ p.opcode = 0x41 then
      let s := if p.opcode = 0x41 ∧ bitsAt p.w3 50 2 = 2 ∧ isHome s (homeOf p.w2) = false then
          updFlex s k fun q => { q with unique := lineKey p.w2 :: q.unique.filter (· != lineKey p.w2) } else s
      releaseSnoops (say s (.cxl k host (bitsAt p.w3 56 8 != 0) p.data)) k
    else flexAck s k host

/-- A flush notice names requests of the port (R75). -/
def flexFlushed (s : State) (k : Nat) (p : Packet) : State :=
  let named := (List.range (p.data.length / 8)).map fun i => leVal ((p.data.drop (8 * i)).take 8)
  let hit := fun (x : FlexSent) =>
    named.any fun v => v / 2 ^ 44 % 2 ^ 20 == x.pkt.tag.toNat && v / 2 ^ 28 % 2 ^ 16 == x.pkt.epoch.toNat
  updFlex s k fun q => { q with sent := mapIf hit (fun x => { x with flushed := true }) q.sent }

/-- A packet for a device-role port's agent. -/
def toFlex (s : State) (k : Nat) (p : Packet) : State :=
  let op := p.opcode.toNat
  if 0x70 ≤ op ∧ op ≤ 0x72 then flexSnoop s k p
  else if op = 0x73 then updFlex s k fun q => { q with unique := q.unique.filter (fun l => homeOf (lineGfa l) != homeOf p.w2) }
  else if op = 0xC0 then flexFlushed s k p
  else flexResponse s k p

/-- Places a packet that came from `o` on an egress queue, marked if the queue is over its threshold (R71, R72). -/
def place (s : State) (n : Nat) (o : Option Origin) (p : Packet) : State :=
  let m := overMark s n p.vc
  let x : Queued := { pkt := if m then { p with ce := true } else p, org := o, marked := m }
  let k := if m then 1 else 0
  if n < 128 then updFab s n fun q => { q with queue := q.queue ++ [x], marked := q.marked + k }
  else if n < 144 then updBrg s (n - 128) fun q => { q with queue := q.queue ++ [x], marked := q.marked + k }
  else toFlex s (n - 144) p

/-- Places a packet of this switch's own on an egress queue. -/
def enqueue (s : State) (n : Nat) (p : Packet) : State := place s n none p

/-! ### The packet buffer (R56, R70, R77) -/

/-- Adds `k` to element `i` of the eight counts of the virtual channels. -/
def addAt : List Nat → Nat → Nat → List Nat
  | [], _, _ => []
  | x :: l, 0, k => (x + k) :: l
  | x :: l, i + 1, k => x :: addAt l i k

/-- Takes `k` from element `i`. -/
def subAt : List Nat → Nat → Nat → List Nat
  | [], _, _ => []
  | x :: l, 0, k => (x - k) :: l
  | x :: l, i + 1, k => x :: subAt l i k

/-- A packet enters the packet buffer by a port, on a channel. -/
def newOrigin (s : State) (n : Nat) (vc : BitVec 3) : State × Origin :=
  ({ s with fab := { s.fab with nextOrigin := s.fab.nextOrigin + 1 } }, { port := n, vc := vc, id := s.fab.nextOrigin })

/-- The packets that stand in the packet buffer and where they came from: on egress queues, in bridge frames not acknowledged,
waiting for tokens or for a route, or still arriving. -/
def buffered (s : State) : List (Option Origin × Packet) :=
  (s.fab.ports.flatMap fun q =>
    q.queue.map (fun x => (x.org, x.pkt)) ++ q.copies.map (fun x => (x.2.org, x.2.pkt))
      ++ q.stalled.map (fun x => (x.2.org, x.2.pkt)) ++ (q.cutting.map fun c => (c.q.org, c.q.pkt)).toList
      ++ (q.partialIn.map fun x => (x.1.org, x.1.pkt)).toList)
  ++ (s.fab.brg.flatMap fun q =>
    q.queue.map (fun x => (x.org, x.pkt)) ++ (q.unacked.flatMap fun f => f.packets.map (fun x => (x.org, x.pkt))))
  ++ s.fab.tokenWait.map (fun x => (some x.1, x.2)) ++ s.fab.unrouted

/-- Whether some copy of a packet still stands in the buffer. -/
def originHeld (s : State) (o : Origin) : Bool := (buffered s).any (fun x => x.1 == some o)

/-- The space of a packet is free once its last copy has left (R70): its slots are owed to its port (R56). -/
def freeOrigin (s : State) (o : Option Origin) (slots : Nat) : State :=
  match o with
  | none => s
  | some o =>
    if originHeld s o then s
    else if o.port < 128 then updFab s o.port fun q => { q with owed := addAt q.owed o.vc.toNat slots }
    else updBrg s (o.port - 128) fun q => { q with owed := addAt q.owed o.vc.toNat slots }

/-- The space of packets that left a queue. -/
def freeAll (s : State) (l : List Queued) : State := l.foldl (fun s x => freeOrigin s x.org (pktSlots x.pkt)) s

end Sys2Proof.Machine
end

