-- ==== Sys2Proof/Machine/Home.lean ====
section
/-!
DEFINITION. Machine/Home.lean: the home's parts that requests share: directory entries, leases, snoops, responses,
the replay log and deduplication (chapters 4 and 5).
-/

namespace Sys2Proof.Machine

/-! ### Opcodes (Tables 4-3, 5-3, 6-10) -/

def syncOpcode : SyncOp → BitVec 8
  | .ld => 0x30
  | .st => 0x31
  | .add => 0x32
  | .cas => 0x33
  | .waitGe => 0x34
  | .waitNe => 0x35
  | .acq => 0x36
  | .arrive => 0x37

def opOpcode : Op → BitVec 8
  | .ld _ => 0x00
  | .ldSnap _ => 0x01
  | .rdS => 0x02
  | .rdU => 0x03
  | .upg => 0x60
  | .st _ => 0x08
  | .amo _ _ => 0x10
  | .cas _ _ => 0x11
  | .sync k _ _ _ => syncOpcode k

/-- Response opcode of a request. -/
def rspOpcode : Op → BitVec 8
  | .ld _ => 0x40
  | .ldSnap _ => 0x40
  | .rdS => 0x41
  | .rdU => 0x41
  | .upg => 0x41
  | .st _ => 0x42
  | .amo _ _ => 0x43
  | .cas _ _ => 0x43
  | .sync _ _ _ _ => 0x43

/-- A write performed at the home (R114). -/
def isWrite : Op → Bool
  | .st _ => true
  | .amo _ _ => true
  | .cas _ _ => true
  | _ => false

/-- A write-intent request (R118). -/
def isIntent : Op → Bool
  | .rdU => true
  | .upg => true
  | o => isWrite o

/-- Payload length of a response, in bytes. -/
def rspBytes (r : Req) : Op → Nat
  | .ld _ => r.nb.toNat + 1
  | .ldSnap _ => r.nb.toNat + 1
  | .rdS => 64
  | .rdU => 64
  | .upg => 64
  | .st _ => 0
  | .amo _ _ => 16
  | .cas _ _ => 16
  | .sync _ _ _ _ => 16

/-- The error value (R84). -/
def errorData (r : Req) (o : Op) : List Byte := List.replicate (rspBytes r o) 0xFF

/-- The shape test of R80 and R147. -/
def malformed (r : Req) : Op → Bool
  | .ld _ => decide (bitsAt r.gfa 0 6 + r.nb.toNat + 1 > 64)
  | .ldSnap _ => decide (bitsAt r.gfa 0 6 + r.nb.toNat + 1 > 64)
  | .rdS => decide (bitsAt r.gfa 0 6 ≠ 0 ∨ r.nb ≠ 63)
  | .rdU => decide (bitsAt r.gfa 0 6 ≠ 0 ∨ r.nb ≠ 63)
  | .upg => false
  | .st _ => decide (bitsAt r.gfa 0 6 + r.nb.toNat + 1 > 64)
  | .amo aop _ => decide (¬(r.nb = 3 ∨ r.nb = 7) ∨ bitsAt r.gfa 0 6 % (r.nb.toNat + 1) ≠ 0 ∨ aop.toNat > 8)
  | .cas _ _ => decide (¬(r.nb = 3 ∨ r.nb = 7 ∨ r.nb = 15) ∨ bitsAt r.gfa 0 6 % (r.nb.toNat + 1) ≠ 0)
  | .sync _ _ _ _ => decide (r.nb ≠ 7 ∨ bitsAt r.gfa 0 3 ≠ 0 ∨ extIdx r.gfa ≠ 0)

/-! ### Directory entries (R106 to R108) -/

def entryOf (s : State) (line : Nat) : Option DirEntry := s.dir.entries.find? (fun e => e.line == line)

def updEntry (s : State) (line : Nat) (f : DirEntry → DirEntry) : State :=
  { s with dir := { s.dir with entries := mapIf (fun e => e.line == line) f s.dir.entries } }

def dropEntry (s : State) (line : Nat) : State :=
  { s with dir := { s.dir with entries := s.dir.entries.filter (fun e => e.line != line) } }

/-- Ways of each backing-store set: 4 for each GiB (R106). -/
def setWays (s : State) : Nat := 4 * backingGiB s

/-- The directory slice of a line (R105). -/
def sliceIdx (s : State) (g : Word) : Nat :=
  let m := match tileOf s (tileKey g) with
    | some t => if t.res.tier = 0 then t.res.unit / 8 else t.res.unit % 2
    | none => 0
  8 * m + hashA g % 8

/-- Two lines share one of the 2^20 backing-store sets of one slice (Table 5-1). -/
def sameSet (s : State) (a b : Nat) : Bool :=
  Config.dirSet a % 2 ^ 20 == Config.dirSet b % 2 ^ 20 && sliceIdx s (lineGfa a) == sliceIdx s (lineGfa b)

/-- The entries of a line's set. -/
def setEntries (s : State) (line : Nat) : List DirEntry := s.dir.entries.filter (fun e => sameSet s e.line line)

/-- Whether a line without an entry can be given one: some way of its set is free. -/
def setHasRoom (s : State) (line : Nat) : Bool :=
  decide (s.dir.entries.length < setWays s) || decide ((setEntries s line).length < setWays s)

/-- The lowest way number not in use in a line's set. -/
def freeWay (s : State) (line : Nat) : Nat :=
  ((List.range (setWays s)).find? (fun w => !(setEntries s line).any (fun e => e.way == w))).getD 0

/-- Recency: 0 for the line used, one more, saturating at 63, for the other ways of its set (R108). -/
def useEntry (s : State) (line : Nat) : State :=
  { s with dir := { s.dir with entries := s.dir.entries.map fun e =>
      if e.line == line then { e with lru := 0 }
      else { e with lru := if sameSet s e.line line then min 63 (e.lru + 1) else e.lru } } }

/-- Writes the entry of a line: a new one takes a free way, an old one keeps its own. -/
def setEntry (s : State) (line : Nat) (st : DirSt) (ptrs : List AgentId) : State :=
  let s := match entryOf s line with
    | some _ => updEntry s line fun e => { e with st := st, ptrs := ptrs, busy := false, promoted := false }
    | none => { s with dir := { s.dir with
        entries := s.dir.entries ++ [{ line := line, st := st, ptrs := ptrs, way := freeWay s line }] } }
  useEntry s line

/-- The 128 bits of a directory entry (Table 5-2). -/
def dirEntryBits (e : DirEntry) : BitVec 128 :=
  let st := match e.st with
    | .shared => 1
    | .broadcast => 2
    | .unique => 3
  let ptr := fun (i : Nat) => (e.ptrs.getD i 0).toNat
  BitVec.ofNat 128 (st * 2 ^ 125 + (if e.busy then 2 ^ 124 else 0) + (if e.promoted then 2 ^ 123 else 0)
    + e.ptrs.length % 8 * 2 ^ 120 + ptr 0 * 2 ^ 102 + ptr 1 * 2 ^ 84 + ptr 2 * 2 ^ 66 + ptr 3 * 2 ^ 48
    + e.line % 2 ^ 42 * 2 ^ 6 + e.lru % 64)

/-! ### Leases and lost agents (R123, R126) -/

/-- Whether an agent may hold a line of an entry: a pointer names it, or the line is in SB and the agent in its domain (R109). -/
def mayHold (s : State) (a : AgentId) (e : DirEntry) : Bool :=
  e.ptrs.contains a || (e.st == .broadcast && (match extentOf s (e.line / 32768) with
    | some x => (domainAgents s x.room x.domain).contains a
    | none => false))

def holdsLine (s : State) (a : AgentId) : Bool := s.dir.entries.any (mayHold s a)

/-- A lease ends with the last line its agent may hold; that of an agent once lost stands from its first packet on (R123,
R126). -/
def dropLeases (s : State) : State :=
  { s with dir := { s.dir with
    leases := s.dir.leases.filter (fun l => holdsLine s l.agent || s.dir.lost.any (fun x => x.1 == l.agent)) } }

/-- Any packet from an agent renews its lease; the first packet of an agent that was lost starts a new one. -/
def renewLease (s : State) (a : AgentId) : State :=
  let u := s.time.now + leaseNs s
  if s.dir.leases.any (fun l => l.agent == a) then
    { s with dir := { s.dir with leases := mapIf (fun l => l.agent == a) (fun l => { l with until_ := u }) s.dir.leases } }
  else if holdsLine s a || s.dir.lost.any (fun x => x.1 == a) then
    { s with dir := { s.dir with leases := s.dir.leases ++ [{ agent := a, until_ := u }] } }
  else s

/-- A grant: the agent holds a line, so it has a lease; a line granted again is no longer one it lost. -/
def granted (s : State) (a : AgentId) (line : Nat) : State :=
  let s := { s with dir := { s.dir with
    lost := mapIf (fun x => x.1 == a) (fun x => (x.1, x.2.1, x.2.2.filter (· != line))) s.dir.lost } }
  renewLease s a

/-- The agent held the line when it was lost here (R126). -/
def lostLine (s : State) (a : AgentId) (line : Nat) : Bool :=
  s.dir.lost.any (fun x => x.1 == a && x.2.2.contains line)

/-! ### Responses and the replay log (R83 to R85, R102 to R104) -/

/-- Slots of the requests of a channel that wait for the home's units. -/
def channelSlots (s : State) (vc : BitVec 3) : Nat :=
  ((s.fab.inbox.filter (fun p => p.vc == vc)).map (fun p => 2 + p.len)).sum

/-- A load hint (R60): sixteenths of the larger of the tracker's fill and that of the queue of the request's channel, at
most 15; an empty queue has no fill. -/
def loadHint (s : State) (vc : BitVec 3) : BitVec 4 :=
  let q := if channelSlots s vc = 0 then 0 else Config.queueFill vc.toNat (channelSlots s vc)
  BitVec.ofNat 4 (min 15 (max (16 * s.dir.trk.length / 1048576) q))

/-- A response packet (Table 4-2); GRANT, WB_ACK and EVC_ACK are relaxed (R112). -/
def rspPacket (s : State) (r : Req) (opcode : BitVec 8) (status : BitVec 8) (grant : BitVec 2) (data : List Byte) :
    Packet :=
  let vc := if 0x69 ≤ opcode.toNat then vcWb else if r.wcls = 0b10 then vcReqB else vcReqR
  let p := mkPacket s opcode vcRsp (if 0x60 ≤ opcode.toNat then 0 else r.ocls) r.wcls r.room r.agent r.tag r.gfa
    (fieldOf 56 8 status.toNat ||| fieldOf 52 4 r.gen.toNat ||| fieldOf 50 2 grant.toNat) data
  { p with
    cee := r.ce
    hint := loadHint s vc
    poison := decide (data ≠ []) && (status == 0x01 || status == 0x03 || status == 0x04 || status == 0x05 || status == 0x09) }

/-- The fault record of a status (R83). -/
def statusFault (s : State) (r : Req) (status : BitVec 8) : State :=
  if status = 0x00 ∨ status = 0x08 then s
  else addFault s { mkFault 0x01 0 r.gfa.toNat with
    room := r.room, status := status, agent := r.agent, tag := BitVec.ofNat 32 r.tag.toNat }

/-- The tracker entry of a request, by (agent, tag). -/
def trackOf (s : State) (a : AgentId) (t : Tag) : Option HomeEntry :=
  s.dir.trk.find? (fun e => e.req.agent == a && e.req.tag == t)

/-- A request leaves the drain count of its extent when it completes (R42). -/
def uncount (s : State) (r : Req) : State :=
  updExtent s (extKey r.gfa) fun x => { x with reqs := x.reqs.filter (fun q => !(q.1 == r.agent && q.2 == r.tag)) }

/-- Puts an own request among those that wait, in order of asking. -/
def insertAsk (q : OwnReq) : List OwnReq → List OwnReq
  | [] => [q]
  | a :: l => if q.n < a.n then q :: a :: l else a :: insertAsk q l

/-- Whether a unit takes the answer of an own request itself: a descriptor's work, a core's transfer, a ring's fetch. -/
def usesAnswer : OwnFor → Bool
  | .work _ => true
  | .transfer _ _ => true
  | .fetch _ => true
  | .twin => true
  | .claim => true
  | .mirror _ _ => true
  | _ => false

/-- Whether an operation is LD_SNAP. -/
def isSnapLoad : Op → Bool
  | .ldSnap _ => true
  | _ => false

/-- An answer to an own request, matched by tag and gen: its slot is free again. A stale epoch makes its unit ask again with a
new tag under the current epoch (R35); an answer that matches nothing is late (R100). -/
def ownAnswer (s : State) (tag : Tag) (gen : Gen) (status : BitVec 8) (data : List Byte) : State :=
  match s.own.sent.find? (fun q => q.tag == tag && q.gen == gen) with
  | none => { s with fab := { s.fab with late := s.fab.late + 1 } }
  | some q =>
    let own := { s.own with sent := s.own.sent.filter (fun x => !(x.tag == tag)) }
    if status = 0x08 then { s with own := { own with asks := insertAsk { q with flushed := false } own.asks } }
    else if usesAnswer q.who then
      { s with own := { own with got := own.got ++
        [{ who := q.who, isRead := !isWrite q.op, snap := isSnapLoad q.op, gfa := q.gfa, status := status, data := data, at_ := s.time.now }] } }
    else { s with own := own }

/-- Whether a request that the home answers is one of this switch's own that is outstanding. -/
def isOwn (s : State) (r : Req) : Bool :=
  r.agent == selfAgent s && r.port.isNone && s.own.sent.any (fun q => q.tag == r.tag && q.gen == r.gen)

/-- Answers a request that holds a tracker entry: one response for each delivery (Table 4-9); the entry moves into the
replay log for W (R104), but for a stale epoch, which is outside every window (R35). The answer of an own request goes
straight to its unit. -/
def respond (s : State) (r : Req) (opcode : BitVec 8) (status : BitVec 8) (grant : BitVec 2) (data : List Byte) :
    State :=
  let s := statusFault s r status
  let p := rspPacket s r opcode status grant data
  let n := match trackOf s r.agent r.tag with
    | some e => e.deliveries
    | none => 1
  let own := isOwn s r
  let s := { s with
    dir := { s.dir with
      trk := s.dir.trk.filter (fun e => !(e.req.agent == r.agent && e.req.tag == r.tag))
      replay := if status = 0x08 then s.dir.replay else s.dir.replay ++
        [{ agent := r.agent, tag := r.tag, epoch := r.epoch, gen := r.gen, room := r.room, resp := p,
           until_ := s.time.now + dedupeWindow s }] }
    fab := { s.fab with
      entered := s.fab.entered.filter (fun x => !(x.1 == r.agent && x.2.1 == r.tag))
      outbox := if own then s.fab.outbox else s.fab.outbox ++ List.replicate n p } }
  uncount (if own then ownAnswer s r.tag r.gen status data else s) r

/-- Answers a request with a status and the error value of its response form. -/
def respondErr (s : State) (r : Req) (o : Op) (status : BitVec 8) : State :=
  respond s r (rspOpcode o) status 0 (if status = 0x08 then [] else errorData r o)

/-- A malformed answer that does not disturb the entry it met (R103); where this switch is the attachment switch too, it
goes to the agent's port past the tracker. -/
def respondMalformed (s : State) (r : Req) (opcode : BitVec 8) (data : List Byte) : State :=
  let s := statusFault s r 0x09
  match r.port with
  | some p => enqueue s p (rspPacket s r opcode 0x09 0 data)
  | none => emit s (rspPacket s r opcode 0x09 0 data)

/-- What deduplication says of a request that reaches the home (Table 4-9, R103, R104). -/
inductive Dedupe where
  /-- a duplicate of an open request: joined to its entry. -/
  | joined
  /-- answered with 0x09; nothing is disturbed. -/
  | bad
  /-- the stored response is replayed. -/
  | replay (e : ReplayEntry)
  /-- a new request. -/
  | new
  deriving DecidableEq, Repr

def dedupe (s : State) (r : Req) : Dedupe :=
  match trackOf s r.agent r.tag with
  | some e => if e.req.gen == r.gen && e.req.epoch == r.epoch then .joined else .bad
  | none =>
    match s.dir.replay.find? (fun e => e.agent == r.agent && e.tag == r.tag && e.epoch == r.epoch) with
    | some e => if e.gen == r.gen then .replay e else if e.gen + 1 == r.gen then .new else .bad
    | none => .new

/-- Opens the tracker entry of a new request; the next gen ends the replay entry of the last (R104). -/
def openTrack (s : State) (r : Req) (opcode : BitVec 8) : State :=
  { s with dir := { s.dir with
      trk := s.dir.trk ++ [{ req := r, opcode := opcode, arrived := s.time.now }]
      replay := s.dir.replay.filter (fun e => !(e.agent == r.agent && e.tag == r.tag && e.epoch == r.epoch)) } }

/-- When this switch is also the attachment switch, the request's entry there (R98). -/
def openAttach (s : State) (r : Req) (opcode : BitVec 8) : State :=
  match r.port with
  | none => s
  | some p =>
    if s.fab.att.any (fun e => e.agent == r.agent && e.tag == r.tag) then s
    else { s with fab := { s.fab with att := s.fab.att ++
      [{ agent := r.agent, tag := r.tag, gen := r.gen, epoch := r.epoch, room := r.room, gfa := r.gfa,
         opcode := opcode, nb := r.nb, tA := s.time.now, port := p }] } }

/-- A further delivery of a request at its attachment switch restarts the timer of its entry, or opens an entry again after
one was answered with 0x04 (Table 4-9). -/
def reopenAttach (s : State) (r : Req) (opcode : BitVec 8) : State :=
  if s.fab.att.any (fun e => e.agent == r.agent && e.tag == r.tag) then
    let att := mapIf (fun e => e.agent == r.agent && e.tag == r.tag)
      (fun e => if r.port.isSome then { e with tA := s.time.now } else e) s.fab.att
    { s with fab := { s.fab with att := att } }
  else openAttach s r opcode

/-- What every request does on arrival: lease, inbox, attachment entry, deduplication; then `f` for a new one. -/
def arrive (s : State) (r : Req) (opcode rsp : BitVec 8) (err : List Byte) (f : State → State) : State :=
  let s := renewLease (takeInbox s opcode r.agent r.tag) r.agent
  match dedupe s r with
  | .joined =>
    let trk := mapIf (fun e => e.req.agent == r.agent && e.req.tag == r.tag)
      (fun e => { e with deliveries := e.deliveries + 1 }) s.dir.trk
    reopenAttach { s with dir := { s.dir with trk := trk } } r opcode
  | .bad => respondMalformed s r rsp err
  | .replay e => emit (reopenAttach s r opcode) { e.resp with epoch := currentEpoch s r.room }
  | .new => f (openTrack (openAttach s r opcode) r opcode)

/-! ### Snoops (R110 to R112) -/

/-- Snoop opcodes of Table 5-3. -/
def snoopOpcode : Snoop → BitVec 8
  | .inv => 0x70
  | .shr => 0x71
  | .peek => 0x72

/-- A snoop tag that is neither in use nor at rest (R112). -/
def takeSnoopTag (s : State) : State × Tag :=
  let used := s.dir.txns.map (fun t => t.tag) ++
    (s.dir.restTags.filter (fun x => decide (x.2 > s.time.now))).map (fun x => x.1)
  let k := ((List.range (used.length + 1)).find?
    (fun k => !used.contains (s.dir.nextSnoop + BitVec.ofNat 20 k))).getD 0
  let t := s.dir.nextSnoop + BitVec.ofNat 20 k
  ({ s with dir := { s.dir with nextSnoop := t + 1 } }, t)

/-- A unicast snoop of a line to one agent. -/
def sendSnoop (s : State) (k : Snoop) (line : Nat) (room : RoomId) (wcls : BitVec 2) (tag : Tag) (a : AgentId) : State :=
  emit s (mkPacket s (snoopOpcode k) vcSnp 0 wcls room a tag (lineGfa line) 0 [])

/-- A multicast snoop to a sharing-domain group, with the excluded agent in word 3 (R110). -/
def sendGroupSnoop (s : State) (line : Nat) (room : RoomId) (dom : Byte) (wcls : BitVec 2) (tag : Tag)
    (x : Option AgentId) : State :=
  let w3 := match x with
    | some a => fieldOf 18 1 1 ||| fieldOf 0 18 a.toNat
    | none => 0
  let p := mkPacket s 0x70 vcSnp 0 wcls room (BitVec.ofNat 18 (room.toNat * 256 + dom.toNat)) tag (lineGfa line) w3 []
  emit s { p with mcast := true }

/-- The agents awaited for a multicast snoop of a line (R110): every switch's own agent answers none. -/
def groupAwaited (s : State) (line : Nat) (x : Option AgentId) : List AgentId :=
  match extentOf s (line / 32768) with
  | some e => (domainAgents s e.room e.domain).filter
      (fun a => some a != x && a != selfAgent s && !Config.switchAgent a)
  | none => []

def txnOf (s : State) (line : Nat) : Option Txn := s.dir.txns.find? (fun t => t.line == line)

def updTxn (s : State) (tag : Tag) (f : Txn → Txn) : State :=
  { s with dir := { s.dir with txns := mapIf (fun t => t.tag == tag) f s.dir.txns } }

/-- Ends a transaction: its tag rests for W. -/
def dropTxn (s : State) (t : Txn) : State :=
  let s := { s with dir := { s.dir with
      txns := s.dir.txns.filter (fun u => u.tag != t.tag)
      restTags := s.dir.restTags.filter (fun x => decide (x.2 > s.time.now)) ++
        [(t.tag, s.time.now + dedupeWindow s)] } }
  updEntry s t.line fun e => { e with busy := false, promoted := false }

/-- Whether the slice of a line holds fewer than 8,192 busy lines (R118). -/
def sliceHasRoom (s : State) (g : Word) : Bool :=
  decide (s.dir.txns.length < 8192) ||
    decide ((s.dir.txns.filter (fun t => sliceIdx s (lineGfa t.line) == sliceIdx s g)).length < 8192)

/-- Starts a transaction: the line is busy, the snoops are sent, the answers awaited. -/
def startTxn (s : State) (line : Nat) (k : Snoop) (targets : List AgentId) (group : Bool) (x : Option AgentId)
    (cause : Option (Req × Op)) (why : Option Recall) (madeFor : Option (AgentId × Tag) := none) : State :=
  let (s, tag) := takeSnoopTag s
  let room := match cause, extentOf s (line / 32768) with
    | some c, _ => c.1.room
    | none, some e => e.room
    | none, none => 0
  let dom : Byte := match extentOf s (line / 32768) with
    | some e => e.domain
    | none => 0
  let wcls : BitVec 2 := match cause with
    | some c => c.1.wcls
    | none => 0
  let t : Txn :=
    { line := line, kind := k, tag := tag, awaited := targets, cause := cause, recallFor := why, exclude := x,
      group := if group then some (room.toNat * 256 + dom.toNat) else none, sentAt := s.time.now,
      uni := if group then [] else targets.map (fun a => (a, s.time.now)), madeFor := madeFor }
  let s := { s with dir := { s.dir with txns := s.dir.txns ++ [t] } }
  let s := updEntry s line fun e => { e with busy := true }
  if group then sendGroupSnoop s line room dom wcls tag x
  else targets.foldl (fun s a => sendSnoop s k line room wcls tag a) s

end Sys2Proof.Machine
end

