-- ==== Sys2Proof/Machine/SyncObj.lean ====
section
/-!
DEFINITION. Machine/SyncObj.lean: sync objects and their waiters (R145 to R151).
-/

namespace Sys2Proof.Machine

/-- The object number of a GFA in extent 0 (R145). -/
def syncNum (g : Word) : Nat := bitsAt g 3 18

def syncObjOf (s : State) (n : Nat) : Option SyncObj := s.sync.objs.find? (fun o => o.n == n)

def setSyncValue (s : State) (n : Nat) (v : Word) : State :=
  { s with sync := { s.sync with objs := mapIf (fun o => o.n == n) (fun o => { o with value := v }) s.sync.objs } }

/-- R147: bound, of the request's room, the agent in its sharing domain; then the epoch (R35). -/
def syncAdmit (s : State) (r : Req) : BitVec 8 :=
  match syncObjOf s (syncNum r.gfa) with
  | none => 0x03
  | some o =>
    if o.room != r.room || !(domainAgents s o.room o.domain).contains r.agent then 0x03
    else if !liveEpoch s r.room r.epoch then 0x08 else 0x00

/-- AMO_DATA of a sync operation: the value, the outcome, zeros. -/
def syncRespond (s : State) (r : Req) (v : Word) (outcome : Byte) : State :=
  respond s r 0x43 0x00 0 (leBytes 8 v.toNat ++ [outcome] ++ List.replicate 7 0)

/-- Whether a waiter's condition holds at a value. -/
def waitMet (w : SyncWaiter) (v : Word) : Bool :=
  match w.kind with
  | .ge => decide (w.a.toInt ≤ v.toInt)
  | .ne => w.a != v
  | .acq => decide (w.a.toInt ≤ v.toInt)
  | .arrive g _ => v.extractLsb' 32 32 != g

/-- The first waiter of an object that is met now: SYNC_ACQ waiters strictly in order (R149). -/
def firstMet (n : Nat) (v : Word) : Bool → List SyncWaiter → Option SyncWaiter
  | _, [] => none
  | acqSeen, w :: l =>
    if w.n != n then firstMet n v acqSeen l
    else if waitMet w v && !(w.kind == .acq && acqSeen) then some w
    else firstMet n v (acqSeen || w.kind == .acq) l

def dropWaiter (s : State) (w : SyncWaiter) : State :=
  { s with sync := { s.sync with
      waiters := s.sync.waiters.filter (fun u => !(u.req.agent == w.req.agent && u.req.tag == w.req.tag)) } }

/-- Meets one waiter: SYNC_ACQ takes its operand; an arrival returns its own old value. -/
def meetWaiter (s : State) (n : Nat) (v : Word) (w : SyncWaiter) : State :=
  let s := dropWaiter s w
  match w.kind with
  | .acq => syncRespond (setSyncValue s n (v - w.a)) w.req v 0
  | .arrive _ old => syncRespond s w.req old 0
  | _ => syncRespond s w.req v 0

/-- Meets every waiter of an object whose condition now holds; each round removes one. -/
def meetWaiters : Nat → State → Nat → State
  | 0, s, _ => s
  | k + 1, s, n =>
    match syncObjOf s n with
    | none => s
    | some o =>
      match firstMet n o.value false s.sync.waiters with
      | none => s
      | some w => meetWaiters k (meetWaiter s n o.value w) n

/-- Writes an object and meets its waiters. -/
def changeSync (s : State) (n : Nat) (v : Word) : State :=
  let s := setSyncValue s n v
  meetWaiters s.sync.waiters.length s n

/-- R149: 0 and larger timeouts are taken as T_dead - 1 us. -/
def waitTimeout (s : State) (t : Nat) : Nat :=
  if t = 0 then tDead s - 1000 else min t (tDead s - 1000)

/-- A waiting operation waits, from its arrival on (R149). -/
def addWaiter (s : State) (r : Req) (k : SyncWait) (a : Word) (t : Nat) : State :=
  let at_ := match trackOf s r.agent r.tag with
    | some e => e.arrived
    | none => s.time.now
  { s with sync := { s.sync with waiters := s.sync.waiters ++
      [{ n := syncNum r.gfa, req := r, kind := k, a := a, until_ := at_ + waitTimeout s t }] } }

/-- Performs a sync operation (Table 6-10), or makes it wait. -/
def syncPerform (s : State) (r : Req) (k : SyncOp) (a b : Word) (t : Nat) : State :=
  let n := syncNum r.gfa
  match syncObjOf s n with
  | none => respondErr s r (.sync k a b t) 0x03
  | some o =>
    let v := o.value
    match k with
    | .ld => syncRespond s r v 0
    | .st => objectBell (changeSync (syncRespond s r v 0) n a) n a
    | .add => changeSync (syncRespond s r v 0) n (v + a)
    | .cas => if v = a then changeSync (syncRespond s r v 0) n b else syncRespond s r v 0
    | .waitGe => if a.toInt ≤ v.toInt then syncRespond s r v 0 else addWaiter s r .ge a t
    | .waitNe => if v ≠ a then syncRespond s r v 0 else addWaiter s r .ne a t
    | .acq =>
      let a := if a.toInt < 1 then 1 else a
      if a.toInt ≤ v.toInt ∧ ¬ s.sync.waiters.any (fun w => w.n == n && w.kind == .acq) then
        changeSync (syncRespond s r v 0) n (v - a)
      else addWaiter s r .acq a t
    | .arrive =>
      let m := if a.extractLsb' 0 32 = 0 then 1 else (a.extractLsb' 0 32).toNat
      let c := (v.extractLsb' 0 32).toNat
      let g := v.extractLsb' 32 32
      if (c + 1) % 2 ^ 32 = m then changeSync (syncRespond s r v 0) n ((g + 1) ++ (0 : BitVec 32))
      else
        let s := setSyncValue s n (g ++ BitVec.ofNat 32 (c + 1))
        let s := addWaiter s r (.arrive g v) a t
        meetWaiters s.sync.waiters.length s n

/-- Ends a waiter at its timeout: outcome 1 and the current value; a timed-out arrival is withdrawn, and a SYNC_ACQ no longer
holds back the later ones (R149). -/
def endWaiter (s : State) (w : SyncWaiter) : State :=
  let s := dropWaiter s w
  match syncObjOf s w.n with
  | none => respondErr s w.req (.sync .ld 0 0 0) 0x03
  | some o =>
    match w.kind with
    | .arrive g _ =>
      if o.value.extractLsb' 32 32 = g then
        let v := g ++ (o.value.extractLsb' 0 32 - 1)
        changeSync (syncRespond s w.req o.value 1) w.n v
      else syncRespond s w.req o.value 1
    | _ =>
      let s := syncRespond s w.req o.value 1
      meetWaiters s.sync.waiters.length s w.n

end Sys2Proof.Machine
end

