-- ==== Sys2Proof/Machine/Serve.lean ====
section
/-!
DEFINITION. Machine/Serve.lean: how the home serves a request: the state table of R114, the pending-write procedure of
R118 and R119, the order of R87, the completion of snoops, the loss of an agent (R125) and the recall of a tile (R359).
-/

namespace Sys2Proof.Machine

/-! ### Data at the home -/

/-- A tray-resident tile of a room other than 0x00 cannot be read while S_p is absent (R373). -/
def keyMissing (s : State) (g : Word) : Bool :=
  s.keys.sP.isNone && tileRoom s (tileKey g) != 0 && (match tileOf s (tileKey g) with
    | some t => t.res.tier != 0
    | none => false)

/-- Sealed extents are read-only, and with the package slot closed they answer nothing (R385). -/
def sealStatus (s : State) (g : Word) (write : Bool) : BitVec 8 :=
  match extentOf s (extKey g) with
  | some x => (match x.slot with
    | some k => if write || !s.keys.pkgs.any (fun p => p.slot == k) then 0x03 else 0x00
    | none => 0x00)
  | none => 0x00

/-- Status and data of a read of a line's bytes (R83): 0x04 lost, 0x05 owner lost, 0x01 poisoned. -/
def readStatus (s : State) (g : Word) : BitVec 8 :=
  if lineLost s g || keyMissing s g then 0x04
  else match markOf s (lineKey g) with
    | some .ownerLost => 0x05
    | some .poisoned => 0x01
    | none => 0x00

/-- Signed and unsigned atomics of Table 4-4 on a width of `w` bytes. -/
def amoValue (aop : BitVec 4) (w m a : Nat) : Nat :=
  let b := 8 * w
  let sm := signedOf b m
  let sa := signedOf b a
  match aop.toNat with
  | 0 => (m + a) % 2 ^ b
  | 1 => m &&& a
  | 2 => m ||| a
  | 3 => m ^^^ a
  | 4 => if sm ≤ sa then m else a
  | 5 => if sm ≥ sa then m else a
  | 6 => min m a
  | 7 => max m a
  | _ => a

/-- Performs a write at the home in state I and answers it (R81, R83, Table 4-4). -/
def performWrite (s : State) (r : Req) (o : Op) : State :=
  let s := checkLine s none (lineKey r.gfa)
  let st := readStatus s r.gfa
  if st = 0x04 ∨ st = 0x05 then respondErr s r o st
  else
    let n := r.nb.toNat + 1
    let s := countAccess s r.gfa
    match o with
    | .st data =>
      let s := poolWrite s r.gfa ((data ++ List.replicate n 0).take n)
      let s := if n = 64 then setMark s (lineKey r.gfa) none else s
      respond s r 0x42 st 0 []
    | .amo aop a =>
      if st = 0x01 then respondErr s r o 0x01
      else
        let m := leVal (poolRead s r.gfa n)
        let s := poolWrite s r.gfa (leBytes n (amoValue aop n m (a.toNat % 2 ^ (8 * n))))
        respond s r 0x43 0x00 0 (leBytes 16 m)
    | .cas c w =>
      if st = 0x01 then respondErr s r o 0x01
      else
        let m := leVal (poolRead s r.gfa n)
        let s := if m = c.toNat % 2 ^ (8 * n) then poolWrite s r.gfa (leBytes n w.toNat) else s
        respond s r 0x43 0x00 0 (leBytes 16 m)
    | _ => s

/-- Answers a load from the point of coherence. -/
def performLoad (s : State) (r : Req) (o : Op) : State :=
  let s := checkLine s none (lineKey r.gfa)
  let st := readStatus s r.gfa
  if st = 0x00 then respond (countAccess s r.gfa) r 0x40 0x00 0 (poolRead s r.gfa (r.nb.toNat + 1)) else respondErr s r o st

/-- Sends LINE_DATA with a grant; at a poisoned line the data is the error value (R83, R84). -/
def sendLine (s : State) (r : Req) (o : Op) (grant : BitVec 2) : State :=
  let s := checkLine s none (lineKey r.gfa)
  let st := readStatus s r.gfa
  granted (respond (countAccess s r.gfa) r 0x41 st grant (if st = 0x00 then poolRead s (lineGfa (lineKey r.gfa)) 64 else errorData r o))
    r.agent (lineKey r.gfa)

/-- The mark of a line in a retained tile (R139). -/
def retainedMark (y : Retained) (line : Nat) : Option Mark :=
  (y.marks.find? (fun m => m.1 == line)).map (fun m => m.2)

/-- The handle checks and the version read of R143. -/
def performSnapLoad (s : State) (r : Req) (h : BitVec 16) : State :=
  let o : Op := .ldSnap h
  match s.maps.handles.find? (fun x => x.h == h && x.room == r.room && x.exts.contains (extKey r.gfa)) with
  | none => respondErr s r o 0x03
  | some x =>
    let s := match retainedFor s x.cut (tileKey r.gfa) with
      | some y => checkLine s (some y.cut) (lineKey r.gfa)
      | none => s
    match retainedFor s x.cut (tileKey r.gfa) with
    | some y =>
      if y.released then respondErr s r o 0x01
      else if y.lost || placeLost s y.res r.gfa then respondErr s r o 0x04
      else match retainedMark y (lineKey r.gfa) with
        | some .poisoned => respondErr s r o 0x01
        | some .ownerLost => respondErr s r o 0x05
        | none => respond s r 0x40 0x00 0 (readBytes y.cells r.gfa.toNat (r.nb.toNat + 1))
    | none => performLoad s r o

/-! ### Completion of a snoop (Table 5-4) -/

/-- The next state and the answer once the last awaited answer is in. -/
def finishCause (s : State) (t : Txn) (r : Req) (o : Op) : State :=
  let line := t.line
  let e := entryOf s line
  match o with
  | .rdS =>
    let owner : List AgentId := match e with
      | some x => x.ptrs
      | none => []
    let stay := if t.ownerStays then owner.filter (· != r.agent) else []
    sendLine (setEntry s line .shared (stay ++ [r.agent])) r o 0b01
  | .rdU | .upg =>
    let had : Bool := match e with
      | some x => x.st == .shared && x.ptrs.contains r.agent
      | none => false
    let s := setEntry s line .unique [r.agent]
    if had then granted (respond (countAccess s r.gfa) r 0x68 0x00 0 []) r.agent line else sendLine s r o 0b10
  | .ld _ =>
    let s := match e with
      | some x => if x.ptrs.isEmpty then dropEntry s line else useEntry s line
      | none => s
    performLoad s r o
  | .ldSnap h => performSnapLoad s r h
  | .st _ | .amo _ _ | .cas _ _ => performWrite (dropEntry s line) r o
  | .sync _ _ _ _ => s

/-- Whether the recall of a tile still awaits an answer, or has lines to ask for. -/
def tileRecalling (s : State) (tile : Nat) : Bool :=
  s.dir.txns.any (fun t => t.recallFor == some .own && t.line / 1024 == tile)
    || s.dir.recalls.any (fun x => x.2 == .own && x.1 / 1024 == tile)

/-- Whether writes to a line's tile wait for its move: Closing, Committing or Disputed (R161, R166). -/
def writesHeld (s : State) (line : Nat) : Bool :=
  match tileOf s (line / 1024) with
  | some t => t.mig == .closing || t.mig == .committing || t.mig == .disputed
  | none => false

/-- Whether a transaction whose answers are in must still wait: its data or its request writes a tile whose writes wait, the
tile is Disputed, or the write-back it crossed waits (R121, R161). -/
def txnHeld (s : State) (t : Txn) : Bool :=
  (writesHeld s t.line && (t.data.isSome || (match t.cause with
    | some c => isIntent c.2
    | none => false)))
    || (match tileOf s (t.line / 1024) with
      | some x => x.mig == .disputed
      | none => false)
    || s.dir.heldWb.any (fun x => lineKey x.1.gfa == t.line)

/-- Ends a transaction whose answers are all in: data it brought is written first. -/
def finishTxn (s : State) (t : Txn) : State :=
  let s := match t.data with
    | some d => poolWriteLine s t.line d
    | none => s
  let s := dropTxn s t
  match t.cause with
  | some (r, o) => finishCause s t r o
  | none =>
    let s := dropEntry s t.line
    if t.recallFor = some .own ∧ ¬ tileRecalling s (t.line / 1024) then
      updTile s (t.line / 1024) fun x => { x with unrecalled := false }
    else s

/-- Ends the transaction of a tag if nothing more is awaited. -/
def checkTxn (s : State) (tag : Tag) : State :=
  match s.dir.txns.find? (fun t => t.tag == tag) with
  | some t => if t.awaited.isEmpty && !txnHeld s t then finishTxn s t else s
  | none => s

/-- The tag of the newest transaction. -/
def lastTag (s : State) : Tag :=
  match s.dir.txns.getLast? with
  | some t => t.tag
  | none => 0

/-- Starts a snoop; with nobody to await it ends at once. -/
def snoopThen (s : State) (line : Nat) (k : Snoop) (targets : List AgentId) (group : Bool) (x : Option AgentId)
    (cause : Option (Req × Op)) (why : Option Recall) (madeFor : Option (AgentId × Tag) := none) : State :=
  let s := startTxn s line k targets group x cause why madeFor
  checkTxn s (lastTag s)

/-- Recall of a line (R114): SNP_INV to whoever may hold it; in the recall of a tile, which has no entries yet, to the extent's
group (R359). -/
def recallNow (s : State) (line : Nat) (why : Recall) (madeFor : Option (AgentId × Tag) := none) : State :=
  if why = .own then snoopThen s line .inv (groupAwaited s line none) true none none (some why)
  else match entryOf s line with
  | none => s
  | some e =>
    match e.st with
    | .broadcast => snoopThen s line .inv (groupAwaited s line none) true none none (some why) madeFor
    | _ => snoopThen s line .inv e.ptrs false none none (some why) madeFor

/-- Asks for the recall of a line: it starts once no transaction holds the line. -/
def askRecall (s : State) (line : Nat) (why : Recall) : State :=
  { s with dir := { s.dir with recalls := s.dir.recalls ++ [(line, why)] } }

/-- Starts every asked recall whose line no transaction holds and whose slice has room for a busy line (R118); the others
stay asked. -/
def startRecalls (s : State) : State :=
  s.dir.recalls.foldl (fun s x =>
    if (txnOf s x.1).isNone && sliceHasRoom s (lineGfa x.1) then recallNow s x.1 x.2
    else { s with dir := { s.dir with recalls := s.dir.recalls ++ [x] } })
    { s with dir := { s.dir with recalls := [] } }

/-- R359: SNP_INV for each of the tile's 1,024 lines to the extent's sharing-domain group, as far as each slice has room. -/
def startTileRecall (s : State) (tile : Nat) : State :=
  match tileOf s tile with
  | none => s
  | some t =>
    if !t.unrecalled || tileRecalling s tile then s
    else startRecalls { s with dir := { s.dir with
      recalls := s.dir.recalls ++ (List.range 1024).map (fun k => (tile * 1024 + k, .own)) } }

/-! ### Serving a request (R114, R118, R119) -/

/-- The retained tile that an LD_SNAP reads; none where it reads the head (R143). -/
def keptFor (s : State) (r : Req) : Op → Option Retained
  | .ldSnap h => (s.maps.handles.find? (fun x => x.h == h && x.room == r.room && x.exts.contains (extKey r.gfa))).bind fun x =>
      retainedFor s x.cut (tileKey r.gfa)
  | _ => none

/-- Whether the tile holds the request back: Unrecalled, Disputed, or a write in Closing or Committing (R161, R359). -/
def tileHolds (s : State) (r : Req) (o : Op) : Bool :=
  match tileOf s (tileKey r.gfa) with
  | none => false
  | some t =>
    t.unrecalled || (match keptFor s r o with
      | some y => y.mig == .disputed
      | none => t.mig == .disputed || (isIntent o && (t.mig == .closing || t.mig == .committing)))

/-- Starts a snoop for a request if its slice has room, or if nobody is to be snooped; otherwise the request waits. -/
def snoopFor (s : State) (r : Req) (o : Op) (k : Snoop) (targets : List AgentId) (group : Bool) (x : Option AgentId) :
    State × Bool :=
  if targets.isEmpty || sliceHasRoom s r.gfa then (snoopThen s (lineKey r.gfa) k targets group x (some (r, o)) none, true) else (s, false)

/-- A grant on a line in I: it needs a way of its set; when none is free a victim is recalled, one for each request that
needs the set, if some way is not busy (R107). -/
def grantNew (s : State) (r : Req) (o : Op) (st : DirSt) (g : BitVec 2) : State × Bool :=
  let line := lineKey r.gfa
  if setHasRoom s line then (sendLine (setEntry s line st [r.agent]) r o g, true)
  else if s.dir.txns.any (fun t => t.madeFor == some (r.agent, r.tag)) || !sliceHasRoom s r.gfa then (s, false)
  else
    let free := (setEntries s line).filter (fun e => !e.busy)
    match maxBy (fun e => e.lru * 64 + (63 - e.way)) free with
    | some v =>
      (recallNow { s with dir := { s.dir with victims := s.dir.victims + 1 } } v.line .victim (some (r.agent, r.tag)), false)
    | none => (s, false)

/-- A request that finds its line free of transactions (Table 5-4). -/
def serveIdle (s : State) (r : Req) (o : Op) : State × Bool :=
  let line := lineKey r.gfa
  let bad := readStatus s r.gfa
  if bad = 0x04 ∨ (bad = 0x05 ∧ (entryOf s line).isNone) then
    match o with
    | .ldSnap h => (performSnapLoad s r h, true)
    | _ => (respondErr s r o bad, true)
  else
  match entryOf s line with
  | none =>
    match o with
    | .rdS => grantNew s r o .shared 0b01
    | .rdU | .upg => grantNew s r o .unique 0b10
    | .ld _ => (performLoad s r o, true)
    | .ldSnap h => (performSnapLoad s r h, true)
    | _ => (performWrite s r o, true)
  | some e =>
    match e.st, o with
    | _, .ldSnap h => (performSnapLoad s r h, true)
    | .shared, .rdS =>
      if e.ptrs.contains r.agent then (sendLine (useEntry s line) r o 0b01, true)
      else if e.ptrs.length < 4 then (sendLine (setEntry s line .shared (e.ptrs ++ [r.agent])) r o 0b01, true)
      else (sendLine (setEntry s line .broadcast []) r o 0b01, true)
    | .broadcast, .rdS => (sendLine (useEntry s line) r o 0b01, true)
    | .shared, .ld _ => (performLoad (useEntry s line) r o, true)
    | .broadcast, .ld _ => (performLoad (useEntry s line) r o, true)
    | .shared, .rdU | .shared, .upg => snoopFor s r o .inv (e.ptrs.filter (· != r.agent)) false none
    | .broadcast, .rdU | .broadcast, .upg =>
      snoopFor s r o .inv (groupAwaited s line (some r.agent)) true (some r.agent)
    | .shared, _ => snoopFor s r o .inv e.ptrs false none
    | .broadcast, _ => snoopFor s r o .inv (groupAwaited s line none) true none
    | .unique, .rdS =>
      if e.ptrs.contains r.agent then (sendLine (setEntry s line .shared e.ptrs) r o 0b01, true)
      else snoopFor s r o .shr e.ptrs false none
    | .unique, .rdU | .unique, .upg =>
      if e.ptrs.contains r.agent then (sendLine (useEntry s line) r o 0b10, true)
      else snoopFor s r o .inv e.ptrs false none
    | .unique, .ld _ => snoopFor s r o .peek e.ptrs false none
    | .unique, _ => snoopFor s r o .inv e.ptrs false none

/-- Whether a transaction is a pending write (R118): a write-intent request on a line in S or SB. -/
def isPendingWrite (s : State) (t : Txn) : Bool :=
  match t.cause, entryOf s t.line with
  | some c, some e => isIntent c.2 && e.st != .unique
  | _, _ => false

/-- A request that finds its line held by a transaction: reads of other agents are served while a write is pending
(R118), shared reads only until promotion (R119); everything else waits. -/
def serveBusy (s : State) (t : Txn) (r : Req) (o : Op) : State × Bool :=
  let line := t.line
  let own : Bool := match t.cause with
    | some c => c.1.agent == r.agent
    | none => true
  if !isPendingWrite s t || own then (s, false)
  else match o, entryOf s line with
    | .ld _, _ => (performLoad (useEntry s line) r o, true)
    | .ldSnap h, _ => (performSnapLoad s r h, true)
    | .rdS, some e =>
      if e.promoted then (s, false)
      else
        let s := useEntry s line
        let s := if e.st == .shared && !e.ptrs.contains r.agent then
            updEntry s line fun e =>
              if e.ptrs.length < 4 then { e with ptrs := e.ptrs ++ [r.agent] } else { e with st := .broadcast, ptrs := [] }
          else s
        let s := sendLine s r o 0b01
        let s := updTxn s t.tag fun t => { t with
          granted := true
          awaited := if t.awaited.contains r.agent then t.awaited else t.awaited ++ [r.agent]
          uni := t.uni.filter (fun x => x.1 != r.agent) ++ [(r.agent, s.time.now)] }
        (sendSnoop s .inv line r.room r.wcls t.tag r.agent, true)
    | _, _ => (s, false)

/-- Whether a request is counted in a Draining extent, or comes of a descriptor that is (R42). -/
def isCounted (s : State) (r : Req) : Bool :=
  match extentOf s (extKey r.gfa) with
  | some x => x.reqs.contains (r.agent, r.tag) || (r.agent == selfAgent s && s.own.sent.any (fun q =>
      q.tag == r.tag && q.gen == r.gen && (match q.who with
        | .work e => x.descs.contains e
        | .transfer c _ => (s.engine.caravans.any fun v => match v.run with
            | some u => x.descs.contains u.e && v.stages.any (fun g => g.clusters.contains c.cluster)
            | none => false)
        | _ => false)))
  | none => false

/-- Serves one request of the slice if it can be served now (R90): shape (R80), admission (R27, R147), then the line. -/
def serve (s : State) (r : Req) (o : Op) : State × Bool :=
  if malformed r o then (respondErr s r o 0x09, true)
  else match o with
  | .sync k a b t =>
    let v := syncAdmit s r
    if v = 0x00 then (syncPerform s r k a b t, true) else (respondErr s r o v, true)
  | _ =>
    let v := admitCode s r.agent r.room r.epoch r.gfa (isCounted s r)
    if v ≠ 0x00 then (respondErr s r o v, true)
    else if sealStatus s r.gfa (isIntent o) ≠ 0x00 then (respondErr s r o 0x03, true)
    else if tileHolds s r o then (s, false)
    else match txnOf s (lineKey r.gfa) with
      | some t => serveBusy s t r o
      | none => serveIdle s r o

/-! ### The order of R87 -/

/-- Two requests of one ordered flow (source, home, class). -/
def sameFlow (a b : Req) : Bool :=
  a.ocls != 0 && a.ocls == b.ocls && a.agent == b.agent && homeOf a.gfa == homeOf b.gfa

/-- Two relaxed requests from one agent to one line. -/
def sameLineFlow (a b : Req) : Bool :=
  a.ocls == 0 && b.ocls == 0 && a.agent == b.agent && lineKey a.gfa == lineKey b.gfa

/-- A request must wait for an earlier one that has not been performed. -/
def heldBack (s : State) (before : List Waiting) (r : Req) : Bool :=
  before.any (fun w => sameFlow w.req r || sameLineFlow w.req r)
    || s.dir.txns.any (fun t => match t.cause with
        | some c => sameFlow c.1 r || sameLineFlow c.1 r
        | none => false)
    || s.sync.waiters.any (fun w => sameFlow w.req r)

/-- A request waits behind an earlier one to its line that waits for a way of its set or for room in its slice (R91, R107,
R118): no transaction holds the line then, and no move holds the tile. -/
def lineTaken (s : State) (before : List Waiting) (r : Req) : Bool :=
  (txnOf s (lineKey r.gfa)).isNone && before.any (fun w => lineKey w.req.gfa == lineKey r.gfa && !tileHolds s w.req w.op
    && !heldBack s [] w.req)

/-- Goes through the waiting requests in arrival order up to the first one that is served; answers the rest. -/
def pumpScan (s : State) (before : List Waiting) : List Waiting → State × Option (List Waiting)
  | [] => (s, none)
  | w :: l =>
    if heldBack s before w.req || lineTaken s before w.req then pumpScan s (before ++ [w]) l
    else
      let (s', ok) := serve s w.req w.op
      if ok then (s', some (before ++ l)) else pumpScan s' (before ++ [w]) l

/-- Serves waiting requests until none can be served; each round takes one out. -/
def pumpLoop : Nat → State → State
  | 0, s => s
  | n + 1, s =>
    match pumpScan s [] s.dir.waiting with
    | (s', none) => s'
    | (s', some l) => pumpLoop n (startRecalls { s' with dir := { s'.dir with waiting := l } })

/-- Ends every transaction whose answers are in and that waited for a move of its tile. -/
def finishReady (s : State) : State :=
  ((s.dir.txns.filter (fun t => t.awaited.isEmpty)).map (fun t => t.tag)).foldl checkTxn s

/-- After any event of the home: what waited for a move ends, asked recalls start, waiting requests are served, and the
leases of agents that hold no line any more end. -/
def pump (s : State) : State :=
  let s := startRecalls (finishReady s)
  dropLeases (pumpLoop (s.dir.waiting.length + 1) s)

/-- A new request enters its slice. -/
def enterSlice (s : State) (r : Req) (o : Op) : State :=
  let s := match tileOf s (tileKey r.gfa) with
    | some t => if t.unrecalled && extIdx r.gfa != 0 then startTileRecall s (tileKey r.gfa) else s
    | none => s
  pump { s with dir := { s.dir with waiting := s.dir.waiting ++ [{ req := r, op := o, since := s.time.now }] } }

/-- A memory request reaches this switch as its home (R90); before takeover the twin's ID is answered with 0x04 at once
(R357). A request homed at neither does not concern this switch. -/
def homeRequest (s : State) (r : Req) (o : Op) : State :=
  if !isRunning s then s
  else if isHome s (homeOf r.gfa) then
    arrive s r (opOpcode o) (rspOpcode o) (errorData r o) (fun s => enterSlice s r o)
  else if twinPresent s && homeOf r.gfa == twinId s then
    statusFault (drawn (emit s (rspPacket s r (rspOpcode o) 0x04 0 (errorData r o)))) r 0x04
  else s

/-! ### Snoop answers, write-backs, evictions (R114, R121, R122, R126) -/

/-- A snoop answer: `keep` says that the owner keeps a shared copy, `data` what it wrote. -/
def snoopAnswer (s : State) (a : SnoopAnswer) (opcode : BitVec 8) (keep : Bool) (data : Option (List Byte)) : State :=
  if !isRunning s then s
  else
  let s := renewLease (takeInbox s opcode a.agent a.tag) a.agent
  match s.dir.txns.find? (fun t => t.tag == a.tag && t.awaited.contains a.agent) with
  | none =>
    if lostLine s a.agent (lineKey a.gfa) then { s with dir := { s.dir with lateLost := s.dir.lateLost + 1 } }
    else { s with dir := { s.dir with strayAnswers := s.dir.strayAnswers + 1 } }
  | some t =>
    let s := updTxn s t.tag fun t => { t with
      data := if data.isSome then data else t.data
      awaited := t.awaited.filter (· != a.agent)
      ownerStays := t.ownerStays || (keep && t.kind == .shr) }
    pump (checkTxn s t.tag)

/-- A WB or EVC is answered: WB_ACK or EVC_ACK with a status. -/
def ackEvict (s : State) (r : Req) (opcode : BitVec 8) (status : BitVec 8) : State := respond s r opcode status 0 []

/-- An agent leaves the entry of a line by its own WB or EVC; during a transaction the entry stays (R121, R122). -/
def leaveLine (s : State) (line : Nat) (a : AgentId) : State :=
  match entryOf s line with
  | none => s
  | some e =>
    let rest := e.ptrs.filter (· != a)
    if e.st == .broadcast then useEntry s line
    else if rest.isEmpty && (txnOf s line).isNone then dropEntry s line
    else updEntry s line fun e => { e with ptrs := rest }

/-- The tile is being recalled by R359, or waits for it: a WB or EVC is taken at once. -/
def crossesRecall (s : State) (line : Nat) : Bool :=
  match tileOf s (line / 1024) with
  | some t => t.unrecalled
  | none => false

/-- A WB or EVC from an agent the entry does not record (last row of Table 5-4, R126). -/
def strayEvict (s : State) (r : Req) (opcode : BitVec 8) : State :=
  if lostLine s r.agent (lineKey r.gfa) then
    ackEvict { s with dir := { s.dir with lateLost := s.dir.lateLost + 1 } } r opcode 0x05
  else ackEvict s r opcode 0x09

/-- The data of a WB is written; a transaction under way on the line has its data (R121). -/
def putBack (s : State) (r : Req) (data : List Byte) : State :=
  let line := lineKey r.gfa
  let s := poolWriteLine s line data
  let s := match txnOf s line with
    | some t => updTxn s t.tag fun t => { t with supplied := true }
    | none => s
  ackEvict (leaveLine s line r.agent) r 0x69 0x00

/-- A WB that the entry of its line allows: it waits while the move of its tile holds writes (R161). -/
def takeBack (s : State) (r : Req) (data : List Byte) : State :=
  if writesHeld s (lineKey r.gfa) then { s with dir := { s.dir with heldWb := s.dir.heldWb ++ [(r, data)] } }
  else pump (putBack s r data)

/-- Performs the write-backs that waited for a move which has settled. -/
def releaseBacks (s : State) : State :=
  let go := s.dir.heldWb.filter (fun x => !writesHeld s (lineKey x.1.gfa))
  if go.isEmpty then s
  else pump (go.foldl (fun s x => putBack s x.1 x.2)
    { s with dir := { s.dir with heldWb := s.dir.heldWb.filter (fun x => writesHeld s (lineKey x.1.gfa)) } })

/-- WB reaches the home. -/
def writeBack (s : State) (r : Req) (data : List Byte) : State :=
  if !isRunning s then s
  else arrive s r 0x61 0x69 [] fun s =>
    let line := lineKey r.gfa
    let s := match tileOf s (line / 1024) with
      | some t => if t.unrecalled then startTileRecall s (line / 1024) else s
      | none => s
    match entryOf s line with
    | some e => if e.st == .unique && e.ptrs.contains r.agent then takeBack s r data else strayEvict s r 0x69
    | none => if crossesRecall s line then takeBack s r data else strayEvict s r 0x69

/-- EVC reaches the home. -/
def cleanEvict (s : State) (r : Req) : State :=
  if !isRunning s then s
  else arrive s r 0x62 0x6A [] fun s =>
    let line := lineKey r.gfa
    let s := match tileOf s (line / 1024) with
      | some t => if t.unrecalled then startTileRecall s (line / 1024) else s
      | none => s
    match entryOf s line with
    | some e =>
      if lostLine s r.agent line then strayEvict s r 0x6A
      else if e.st == .broadcast || e.ptrs.contains r.agent then
        pump (ackEvict (leaveLine s line r.agent) r 0x6A 0x00)
      else strayEvict s r 0x6A
    | none => if crossesRecall s line then pump (ackEvict s r 0x6A 0x00) else strayEvict s r 0x6A

/-! ### Lost agents (R124, R125) -/

/-- The lines an agent may hold: those whose pointers name it, and those in SB of its domains (R109). -/
def linesHeld (s : State) (a : AgentId) : List Nat := (s.dir.entries.filter (mayHold s a)).map (fun e => e.line)

/-- Lines an agent holds in U, and whether their extent reverts on loss. -/
def uniqueLines (s : State) (a : AgentId) : List (Nat × Bool) :=
  (s.dir.entries.filter (fun e => e.st == .unique && e.ptrs.contains a)).map fun e =>
    (e.line, match extentOf s (e.line / 32768) with
      | some x => x.revert
      | none => false)

/-- A line held U by a lost agent: marked owner-lost, which a version of the tile does not see (R139), or left at its last value, and its entry freed; a transaction
that waited for the agent ends, and its request is served again. -/
def loseUnique (s : State) (x : Nat × Bool) : State :=
  let s := if x.2 then s else markLine s x.1 (some .ownerLost)
  match txnOf s x.1 with
  | none => dropEntry s x.1
  | some t =>
    let s := dropEntry (dropTxn s t) x.1
    match t.cause with
    | some (r, o) => { s with dir := { s.dir with
        waiting := { req := r, op := o, since := t.sentAt } :: s.dir.waiting } }
    | none => s

/-- R125: the agent is lost at this home. -/
def loseAgent (s : State) (a : AgentId) : State :=
  let tL := s.time.now
  let held := linesHeld s a
  let us := uniqueLines s a
  let room : RoomId := match us with
    | x :: _ => (match extentOf s (x.1 / 32768) with
      | some e => e.room
      | none => 0)
    | [] => 0
  let home : Word := BitVec.ofNat 64 ((selfId s).toNat * 2 ^ 48)
  let s := emit s (mkPacket s 0x73 vcSnp 0 0 room a 0 home 0 [])
  let s := { s with dir := { s.dir with
    leases := s.dir.leases.filter (fun l => l.agent != a)
    lost := s.dir.lost.filter (fun x => x.1 != a) ++ [(a, tL, held)]
    lostCount := s.dir.lostCount + 1 } }
  let s := us.foldl loseUnique s
  let tags := (s.dir.txns.filter (fun t => t.awaited.contains a)).map (fun t => t.tag)
  let s := { s with dir := { s.dir with
    txns := s.dir.txns.map fun t => { t with awaited := t.awaited.filter (· != a) }
    entries := s.dir.entries.map fun e =>
      if e.st == .shared then { e with ptrs := e.ptrs.filter (· != a) } else e } }
  let s := tags.foldl checkTxn s
  let s := { s with dir := { s.dir with
    entries := s.dir.entries.filter (fun e => e.st == .broadcast || !e.ptrs.isEmpty || e.busy) } }
  let marked := (us.filter (fun x => !x.2)).length
  let s := addFault s { mkFault 0x02 1 (tL + marked * 2 ^ 64 + (us.length - marked) * 2 ^ 128) with
    agent := a, status := 0x05 }
  pump s

end Sys2Proof.Machine
end

