-- ==== Sys2Proof/Machine/Fabric.lean ====
section
/-!
DEFINITION. Machine/Fabric.lean: forwarding (R61 to R64, R69 to R76, R356), token buckets (R92, R93), the trackers of the
attachment switch (R98 to R103) and flush notices (R74).
-/

namespace Sys2Proof.Machine

/-! ### Flush notices (R74) -/

/-- The agent that is told of a flushed packet. -/
def flushTold (p : Packet) : AgentId := if p.vc = vcRsp then p.dst else p.src

/-- The 8 B entry of a flushed packet. -/
def flushWord (p : Packet) : Nat :=
  p.tag.toNat * 2 ^ 44 + p.epoch.toNat * 2 ^ 28 + p.opcode.toNat * 2 ^ 20 + p.ocls.toNat * 2 ^ 18
    + (homeOf p.w2).toNat

/-- Builds and sends one notice of up to 512 entries. -/
def sendNotice (s : State) (a : AgentId) (room : RoomId) (ps : List Packet) : State :=
  let data := ps.foldl (fun d p => d ++ leBytes 8 (flushWord p)) []
  let n := mkPacket s 0xC0 vcCtl 0 0 room a s.fab.noticeTag 0 0 data
  let keep := s.fab.notices.filter (fun x => decide (s.time.now < x.1 + dedupeWindow s))
  emit { s with fab := { s.fab with notices := keep ++ [(s.time.now, n)], noticeTag := s.fab.noticeTag + 1 } } n

/-- Pieces of at most `n` elements. -/
def piecesOf {α : Type} (n : Nat) : Nat → List α → List (List α)
  | 0, _ => []
  | k + 1, l => if l.isEmpty then [] else l.take n :: piecesOf n k (l.drop n)

/-- Reports flushed packets: one notice, or more, to each agent that is told. -/
def reportFlush (s : State) (ps : List Packet) : State :=
  let who := (ps.map flushTold).eraseDups
  who.foldl (fun s a =>
    let mine := ps.filter (fun p => flushTold p == a)
    let room : RoomId := match mine with
      | p :: _ => p.room
      | [] => 0
    (piecesOf 512 mine.length mine).foldl (fun s l => sendNotice s a room l) s) s

/-- Flushes one packet of a path set that chose a port that is down (R73). -/
def flushOne (s : State) (n : Nat) (p : Packet) : State :=
  let s := if n < 128 then updFab s n fun q => { q with flushed := q.flushed + 1 }
    else updBrg s (n - 128) fun q => { q with flushed := q.flushed + 1 }
  reportFlush s [p]

/-! ### Routes (R62 to R64, R73, R356) -/

/-- The path sets of a room's epoch; room 0x00 has no map of its own and uses those of any room. -/
def routeTables (s : State) (room : RoomId) (e : Epoch) : List RoomPaths :=
  if room = 0 then s.fab.routes else s.fab.routes.filter (fun x => x.room == room && x.epoch == e)

def pathSetOf (s : State) (room : RoomId) (e : Epoch) (k : RouteKey) : Option PathSet :=
  ((routeTables s room e).flatMap (fun x => x.paths)).find? (fun p => p.key == k)

/-- The twin of a switch as the committed map gives it (R357), or this switch's own setting. -/
def twinOf (s : State) (room : RoomId) (e : Epoch) (x : SwitchId) : Option SwitchId :=
  match ((routeTables s room e).flatMap (fun y => y.twins)).find? (fun p => p.1 == x) with
  | some p => some p.2
  | none => if twinPresent s && twinId s == x then some (selfId s) else none

/-- Puts a number into a rising list, once. -/
def insertNat (n : Nat) : List Nat → List Nat
  | [] => [n]
  | a :: l => if n < a then n :: a :: l else if n = a then a :: l else a :: insertNat n l

/-- The ports of a path set, ascending, at most 16 (R62). -/
def setPorts (p : PathSet) : List Nat := (p.ports.foldl (fun l n => insertNat n l) []).take 16

def livePorts (s : State) (p : PathSet) : List Nat := (setPorts p).filter (portUp s)

/-- The oldest open shadow window of a path set: of the first of its ports that went down (R73). -/
def shadowOf (s : State) (p : PathSet) : Option (Nat × Nat × List Nat) :=
  s.fab.shadows.find? (fun x => (setPorts p).contains x.1)

/-- The ports among which a packet chooses: the former set while a shadow window is open, the live set otherwise (R62, R73). -/
def shadowPorts (s : State) (p : PathSet) : List Nat :=
  match shadowOf s p with
  | some x => (setPorts p).filter (fun n => x.2.2.contains n)
  | none => livePorts s p

/-- Where a packet goes. -/
inductive Hop where
  /-- to this switch's own units. -/
  | here
  /-- out on a port that is up. -/
  | port (n : Nat)
  /-- its choice is a port that went down: it is flushed. -/
  | flush (n : Nat)
  /-- no route yet (R427). -/
  | none
  /-- an agent that this switch does not reach (R357): discarded and counted. -/
  | drop
  deriving DecidableEq, Repr

/-- Chooses a port of a path set by a hash (R64), by the shadow set while one is open (R73). -/
def chooseIn (s : State) (p : PathSet) (h : Nat) : Hop :=
  let l := shadowPorts s p
  match l[h % l.length]? with
  | some n => if portUp s n then .port n else .flush n
  | none => .none

/-- The standby set of a switch ID: its twin's live path set (R356, R357). -/
def standby (s : State) (room : RoomId) (e : Epoch) (x : SwitchId) (h : Nat) : Hop :=
  match twinOf s room e x with
  | none => .none
  | some t =>
    if t == selfId s then .here
    else match pathSetOf s room e (.home t) with
      | some p => if (shadowPorts s p).isEmpty then .none else chooseIn s p h
      | none => .none

/-- Whether a packet is routed by its GFA (R62): a memory request. -/
def byGfa (p : Packet) : Bool := decide (p.opcode.toNat < 0x40)

/-- The next hop of a unicast packet (R61, R62). -/
def nextHop (s : State) (p : Packet) : Hop :=
  if byGfa p then
    let x := homeOf p.w2
    if isHome s x then .here
    else
      let h := pathHash p.src x p.ocls p.w2
      match pathSetOf s p.room p.epoch (.home x) with
      | some ps => if (shadowPorts s ps).isEmpty then standby s p.room p.epoch x h else chooseIn s ps h
      | none => standby s p.room p.epoch x h
  else if p.dst == selfAgent s then .here
  else match attachOf s p.dst with
    | some a =>
      if portUp s a.port then .port a.port
      else if s.fab.shadows.any (fun x => x.1 == a.port) then .flush a.port else .none
    | none =>
      match pathSetOf s p.room p.epoch (.agent p.dst) with
      | none => .none
      | some ps =>
        let h := pathHash p.src ps.attachSwitch p.ocls p.w2
        if (shadowPorts s ps).isEmpty then
          (match standby s p.room p.epoch ps.attachSwitch h with
            | .here => .drop
            | y => y)
        else chooseIn s ps h

/-- Whether the home's route table holds an up port toward an agent (R124). -/
def agentReachable (s : State) (a : AgentId) : Bool :=
  match attachOf s a with
  | some x => portUp s x.port
  | none => (s.fab.routes.flatMap (fun x => x.paths)).any (fun p => p.key == .agent a && p.ports.any (portUp s))

/-- Counts a packet discarded at its port of entry for its hops (R61). -/
def countHop (s : State) (n : Nat) : State :=
  if n < 128 then updFab s n fun q => { q with hopDiscards := q.hopDiscards + 1 }
  else updBrg s (n - 128) fun q => { q with hopDiscards := q.hopDiscards + 1 }

/-- Counts a multicast packet discarded at its port of entry (R69). -/
def countMcast (s : State) (n : Nat) : State :=
  if n < 128 then updFab s n fun q => { q with mcastDiscards := q.mcastDiscards + 1 }
  else updBrg s (n - 128) fun q => { q with mcastDiscards := q.mcastDiscards + 1 }

/-- A multicast packet is copied by its group entry (R69, R70); the requester that word 3 excludes gets none (R110). A port of
the group that is down gets no copy. -/
def routeMulticast (s : State) (from_ : Option Origin) (p : Packet) : State :=
  match s.fab.groups.find? (fun g => g.id == p.dst.toNat) with
  | none =>
    match from_ with
    | some o => countMcast s o.port
    | none => { s with fab := { s.fab with groupMiss := s.fab.groupMiss + 1 } }
  | some g =>
    let excluded := fun n => bitsAt p.w3 18 1 == 1 && s.fab.attach.any (fun a => a.port == n && a.agent == p.w3.extractLsb' 0 18)
    let outs := g.ports.filter fun n => from_.all (fun o => o.port != n) && portUp s n && !excluded n && (agentPort s n || decide (p.hops > 0))
    let s := outs.foldl (fun s n =>
      place s n from_ (if agentPort s n then p else { p with hops := p.hops - 1 })) s
    if g.localDelivery && !(p.vc == vcSnp) then { s with fab := { s.fab with inbox := s.fab.inbox ++ [p] } } else s

/-- A packet is delivered to this switch's own units: a snoop or LOST for its own agent is discarded (R110); a request that
entered by a port without an agent counts there while it is open (R98). -/
def deliver (s : State) (from_ : Option Origin) (p : Packet) : State :=
  if 0x70 ≤ p.opcode.toNat ∧ p.opcode.toNat ≤ 0x73 then s
  else
    let entered := match from_ with
      | some o => if byGfa p && !agentPort s o.port then s.fab.entered ++ [(p.src, p.tag, o.port)] else s.fab.entered
      | none => s.fab.entered
    { s with fab := { s.fab with inbox := s.fab.inbox ++ [p], entered := entered } }

/-- Forwards a packet that entered by `from_`, or that this switch formed (none). -/
def forward (s : State) (from_ : Option Origin) (p : Packet) : State :=
  if p.mcast then routeMulticast s from_ p
  else match nextHop s p with
  | .here => deliver s from_ p
  | .port n =>
    if agentPort s n then place s n from_ p
    else if p.hops = 0 then
      (match from_ with
        | some o => countHop s o.port
        | none => s)
    else place s n from_ { p with hops := p.hops - 1 }
  | .flush n => flushOne s n p
  | .none => { s with fab := { s.fab with unrouted := s.fab.unrouted ++ [(from_, p)] } }
  | .drop => { s with fab := { s.fab with agentMiss := s.fab.agentMiss + 1 } }

/-- Sends a packet of this switch on a path that is up, whatever shadow set is open: a notice that was flushed (R74). -/
def sendUp (s : State) (p : Packet) : State :=
  match attachOf s p.dst, pathSetOf s p.room p.epoch (.agent p.dst) with
  | some a, _ => if portUp s a.port then enqueue s a.port p else emit s p
  | none, some ps =>
    let l := livePorts s ps
    (match l[pathHash p.src ps.attachSwitch p.ocls p.w2 % l.length]? with
      | some n => enqueue s n (if agentPort s n then p else { p with hops := p.hops - 1 })
      | none => emit s p)
  | none, none => emit s p

/-! ### Attachment trackers (R98, R100, R103) -/

def attOf (s : State) (a : AgentId) (t : Tag) : Option AttEntry :=
  s.fab.att.find? (fun e => e.agent == a && e.tag == t)

/-- The entry of a request closes. -/
def dropAtt (s : State) (a : AgentId) (t : Tag) : State :=
  { s with fab := { s.fab with att := s.fab.att.filter (fun e => !(e.agent == a && e.tag == t)) } }

/-- Payload bytes of the response to a request opcode (R84). -/
def rspLen (opcode : BitVec 8) (nb : BitVec 7) : Nat :=
  match opcode.toNat with
  | 0x00 => nb.toNat + 1
  | 0x01 => nb.toNat + 1
  | 0x02 => 64
  | 0x03 => 64
  | 0x60 => 64
  | 0x61 => 0
  | 0x62 => 0
  | 0x08 => 0
  | _ => 16

/-- Response opcode of a request opcode (Table 4-3). -/
def rspOf (opcode : BitVec 8) : BitVec 8 :=
  match opcode.toNat with
  | 0x00 => 0x40
  | 0x01 => 0x40
  | 0x02 => 0x41
  | 0x03 => 0x41
  | 0x60 => 0x41
  | 0x61 => 0x69
  | 0x62 => 0x6A
  | 0x08 => 0x42
  | _ => 0x43

/-- An error response formed at the attachment switch, with its fault record (R83, R100). -/
def attachError (s : State) (e : AttEntry) (status : BitVec 8) : State :=
  let n := rspLen e.opcode e.nb
  let p := mkPacket s (rspOf e.opcode) vcRsp 0 0 e.room e.agent e.tag e.gfa
    (fieldOf 56 8 status.toNat ||| fieldOf 52 4 e.gen.toNat) (List.replicate n 0xFF)
  let s := addFault s { mkFault 0x01 0 e.gfa.toNat with
    room := e.room, status := status, agent := e.agent, tag := BitVec.ofNat 32 e.tag.toNat }
  enqueue s e.port { p with poison := decide (n ≠ 0) }

/-- A response is matched against the open entries by (agent, tag, gen) and closes the one it meets, going on to the
agent; any other is discarded and counted as late (R100). -/
def attRespond (s : State) (from_ : Option Origin) (p : Packet) : State :=
  match s.fab.att.find? (fun e => e.agent == p.dst && e.tag == p.tag && e.gen == p.w3.extractLsb' 52 4) with
  | some e => place (dropAtt s e.agent e.tag) e.port from_ p
  | none => { s with fab := { s.fab with late := s.fab.late + 1 } }

/-- Whether a packet is a response that the attachment switch tracks: a memory response, GRANT, WB_ACK or EVC_ACK (R112). -/
def isTracked (p : Packet) : Bool :=
  (decide (0x40 ≤ p.opcode.toNat) && decide (p.opcode.toNat < 0x60))
    || (decide (0x68 ≤ p.opcode.toNat) && decide (p.opcode.toNat ≤ 0x6A))

/-- Hands on a packet of the outbox: a tracked response to an agent attached here closes its entry; any other packet is
forwarded. -/
def route (s : State) (p : Packet) : State :=
  if isTracked p && !p.mcast && (attachOf s p.dst).isSome then attRespond s none p else forward s none p

/-! ### Token buckets (R92, R93) -/

def bucketRate (s : State) (room : RoomId) (reserved : Bool) : Nat :=
  match roomOf s room with
  | some r => if reserved then r.rate else r.beRate
  | none => if reserved then 1 else 0

/-- The burst of a room in bits. -/
def bucketBurst (s : State) (room : RoomId) : Nat :=
  match roomOf s room with
  | some r => r.burst * 8192
  | none => 4 * 8192

/-- Tokens of a bucket now, in bits; a bucket that is not listed is full. A rate of r Gb/s is r bits each ns. -/
def bucketTokens (s : State) (a : AgentId) (room : RoomId) (reserved : Bool) : Nat :=
  match s.fab.buckets.find? (fun b => b.agent == a && b.room == room && b.reserved == reserved) with
  | some b => min (bucketBurst s room) (b.tokens + (s.time.now - b.filledAt) * bucketRate s room reserved)
  | none => bucketBurst s room

def setBucket (s : State) (a : AgentId) (room : RoomId) (reserved : Bool) (t : Nat) : State :=
  { s with fab := { s.fab with
      buckets := s.fab.buckets.filter (fun b => !(b.agent == a && b.room == room && b.reserved == reserved)) ++
        [{ agent := a, room := room, reserved := reserved, tokens := t, filledAt := s.time.now }] } }

/-- What a request is charged: its slots and its response's, in bits. -/
def chargeOf (p : Packet) : Nat :=
  (pktSlots p + 2 + slotsOf (rspLen p.opcode (p.w3.extractLsb' 56 7))) * 128

/-- The reserved bucket: a reserved-class request that finds too few tokens is demoted, and counted (R93). -/
def reservedTest (s : State) (p : Packet) : State × Packet :=
  let c := chargeOf p
  if p.wcls = 0b10 then (s, p)
  else if bucketRate s p.room true > 0 ∧ bucketTokens s p.src p.room true ≥ c then
    (setBucket s p.src p.room true (bucketTokens s p.src p.room true - c), p)
  else (updRoom s p.room fun r => { r with demoted := r.demoted + 1 }, { p with wcls := 0b10, vc := vcReqB })

/-- The best-effort bucket: charged, or too few tokens (R93). -/
def bestTest (s : State) (p : Packet) : State × Bool :=
  let c := chargeOf p
  if bucketRate s p.room false = 0 then (s, true)
  else if bucketTokens s p.src p.room false ≥ c then
    (setBucket s p.src p.room false (bucketTokens s p.src p.room false - c), true)
  else (s, false)

/-- What the buckets say of a request that enters by port `n`: it enters (demoted or not), or it waits for tokens; a
best-effort request also waits behind those of its port that do (R93). -/
def bucketTest (s : State) (n : Nat) (p : Packet) : State × Packet × Bool :=
  let (s, p) := reservedTest s p
  if p.wcls ≠ 0b10 then (s, p, true)
  else if s.fab.tokenWait.any (fun x => x.1.port == n) then (s, p, false)
  else
    let (s, go) := bestTest s p
    (s, p, go)

/-! ### Requests that enter from an agent (R61, R93, R98, R103) -/

/-- Whether a packet is a request of Table 4-3, Table 6-10 or UPG. -/
def isRequest (p : Packet) : Bool := decide (p.opcode.toNat < 0x40) || p.opcode == 0x60

/-- WB and EVC carry tags and are deduplicated as requests are; no bucket is charged for them (R112). -/
def isEvict (p : Packet) : Bool := p.opcode == 0x61 || p.opcode == 0x62

/-- A request released by its bucket gets its tracker entry and goes on (R98, Table 4-9). -/
def enterRequest (s : State) (o : Origin) (p : Packet) : State :=
  let gen : Gen := p.w3.extractLsb' 48 4
  let e : AttEntry :=
    { agent := p.src, tag := p.tag, gen := gen, epoch := p.epoch, room := p.room, gfa := p.w2, opcode := p.opcode,
      nb := p.w3.extractLsb' 56 7, tA := s.time.now, port := o.port }
  match attOf s p.src p.tag with
  | some x =>
    if x.gen == gen && x.epoch == p.epoch then
      let att := mapIf (fun x => x.agent == p.src && x.tag == p.tag) (fun x => { x with tA := s.time.now }) s.fab.att
      forward { s with fab := { s.fab with att := att } } (some o) p
    else attachError s e 0x09
  | none => forward { s with fab := { s.fab with att := s.fab.att ++ [e] } } (some o) p

/-- Opcodes that the manual does not reserve (Tables 3-6, 4-3, 5-3, 7-12, 11-4). -/
def knownOpcode (o : BitVec 8) : Bool :=
  let x := o.toNat
  decide (x ≤ 0x03) || x == 0x08 || x == 0x10 || x == 0x11 || (decide (0x30 ≤ x) && decide (x ≤ 0x37))
    || (decide (0x40 ≤ x) && decide (x ≤ 0x43)) || (decide (0x60 ≤ x) && decide (x ≤ 0x63))
    || (decide (0x68 ≤ x) && decide (x ≤ 0x6A)) || (decide (0x70 ≤ x) && decide (x ≤ 0x73))
    || (decide (0x78 ≤ x) && decide (x ≤ 0x7B))
    || (decide (0x90 ≤ x) && decide (x ≤ 0xF3) && !(decide (0x95 ≤ x) && decide (x ≤ 0x97)))

/-- The header test of R59. -/
def headerOk (p : Packet) : Bool := knownOpcode p.opcode && p.wcls != 0b11 && decide (p.len ≤ 256)

/-- What a packet with a good header that entered the buffer as `o` does. -/
def ingressOf (s : State) (o : Origin) (p : Packet) : State :=
  let ag := agentPort s o.port
  let p := if ag then { p with hops := hopLimit s } else p
  if ag && p.mcast then countMcast s o.port
  else if ag && isEvict p then enterRequest s o p
  else if ag && isRequest p then
    let (s', p', go) := bucketTest s o.port p
    if go then enterRequest s' o p'
    else { s' with fab := { s'.fab with tokenWait := s'.fab.tokenWait ++ [(o, p')] } }
  else if isTracked p && !p.mcast && (attachOf s p.dst).isSome then attRespond s (some o) p
  else forward s (some o) p

/-- A whole packet that entered by port `n` with a good header; its space is free unless it stands on a queue now. -/
def ingress (s : State) (n : Nat) (p : Packet) : State :=
  let (s, o) := newOrigin s n p.vc
  freeOrigin (ingressOf s o p) (some o) (pktSlots p)

/-- The first request of each port that waits for tokens, of an agent and room. -/
def waitingHead (s : State) (a : AgentId) (room : RoomId) : Option (Origin × Packet) :=
  s.fab.tokenWait.find? fun x =>
    x.2.src == a && x.2.room == room && (s.fab.tokenWait.find? (fun y => y.1.port == x.1.port)) == some x

/-- Releases requests of an agent and room while the first of a port's queue finds its charge in the bucket (R93). -/
def releaseLoop : Nat → State → AgentId → RoomId → State
  | 0, s, _, _ => s
  | k + 1, s, a, room =>
    match waitingHead s a room with
    | none => s
    | some x =>
      let (s', go) := bestTest s x.2
      if go then
        let t := enterRequest { s' with fab := { s'.fab with tokenWait := s'.fab.tokenWait.erase x } } x.1 x.2
        releaseLoop k (freeOrigin t (some x.1) (pktSlots x.2)) a room
      else s

/-- Releases the waiting requests of an agent and room for which the bucket now holds enough (R93). -/
def releaseWaiting (s : State) (a : AgentId) (room : RoomId) : State := releaseLoop s.fab.tokenWait.length s a room

/-- Routes the packets that waited for a route (R427). -/
def routeUnrouted (s : State) : State :=
  let l := s.fab.unrouted
  l.foldl (fun s x => freeOrigin (forward s x.1 x.2) x.1 (pktSlots x.2)) { s with fab := { s.fab with unrouted := [] } }

/-- Sends a snoop again with its tag (R122, C5): to the agents still awaited that had it as a unicast, and to the same group
if it was multicast. -/
def resendSnoop (s : State) (tag : Tag) : State :=
  match s.dir.txns.find? (fun t => t.tag == tag) with
  | none => s
  | some t =>
    let room : RoomId := match t.cause, extentOf s (t.line / 32768) with
      | some c, _ => c.1.room
      | none, some e => e.room
      | none, none => 0
    let wcls : BitVec 2 := match t.cause with
      | some c => c.1.wcls
      | none => 0
    let s := updTxn s tag fun t => { t with sentAt := s.time.now }
    let uni := t.awaited.filter (fun a => t.uni.any (fun x => x.1 == a))
    let s := updTxn s tag fun t => { t with uni := t.uni.map (fun x => (x.1, s.time.now)) }
    let s := match t.group with
      | some g => sendGroupSnoop s t.line (BitVec.ofNat 8 (g / 256)) (BitVec.ofNat 8 g) wcls tag t.exclude
      | none => s
    uni.foldl (fun s a => sendSnoop s t.kind t.line room wcls tag a) s

/-! ### Sharing-domain groups (R69) -/

/-- The ports of a group toward an agent: its own port here, or the branches of the group's tree among the up ports of its
path set (R69, R70). -/
def portsToward (s : State) (r : RoomId) (id : Nat) (a : AgentId) : List Nat :=
  match attachOf s a with
  | some x => if portUp s x.port then [x.port] else []
  | none => match pathSetOf s r (currentEpoch s r) (.agent a) with
    | some p => (livePorts s p).filter (Config.treePort id)
    | none => []

/-- The multicast group entry of a sharing domain at this switch (R69). -/
def setGroup (s : State) (r : RoomId) (d : Byte) (agents : List AgentId) : State :=
  let id := r.toNat * 256 + d.toNat
  let g : Group :=
    { id := id, ports := (agents.flatMap (portsToward s r id)).eraseDups, localDelivery := agents.contains (selfAgent s) }
  { s with fab := { s.fab with groups := s.fab.groups.filter (fun x => x.id != id) ++ [g] } }

/-- Sets the groups of all sharing domains from the paths that are up. -/
def refreshGroups (s : State) : State := s.rooms.domains.foldl (fun s d => setGroup s d.room d.idx d.agents) s

end Sys2Proof.Machine
end

