-- ==== Sys2Proof/Machine/Link.lean ====
section
/-!
DEFINITION. Machine/Link.lean: flits, link retry, credits and the packet buffer, cut-through and port down (chapter 3).
-/

namespace Sys2Proof.Machine

/-! ### Credits and the packet buffer (R56, R77) -/

def creditOf (l : List Nat) (vc : BitVec 3) : Nat := l.getD vc.toNat 0

/-- The channels of guaranteed and elastic work, responses, snoops, write-backs and control: all but REQ-B and DAT-B. -/
def isReservedVc (v : Nat) : Bool := v != 1 && v != 6

/-- The I/O die of a port, whose 96 MiB it shares. -/
def bufferDie (s : State) (n : Nat) : Nat := if n < 128 then fabGroup s n / 28 else (n - 128) / 8

/-- Slots of a port's credit pool: its rate times its measured credit round trip, which is the link's round trip of at most
1.5 us and 200 ns of handling at each end (R54, R77). -/
def poolSlots (s : State) (n : Nat) : Nat := portRate s n * (min 1500 (Config.linkRtt n) + 400) / 16

/-- Slots that a channel of a port has of its own: the floor of two largest packets, and for a reserved channel a sixth of the
port's pool (R77). -/
def baseSlots (s : State) (n v : Nat) : Nat := 516 + if isReservedVc v then poolSlots s n / 6 else 0

/-- Slots given to the peer of a port. -/
def givenOf (s : State) (n : Nat) : List Nat :=
  if n < 128 then ((fabPort s n).map (fun q => q.given)).getD [] else ((brgPort s (n - 128)).map (fun q => q.given)).getD []

/-- Slots that the shared pool lends to a port. -/
def lentTo (s : State) (n : Nat) : Nat := ((List.range 8).map fun v => (givenOf s n).getD v 0 - baseSlots s n v).sum

/-- The ports that draw on the buffer of a die: those that have trained. -/
def diePorts (s : State) (d : Nat) : List Nat :=
  (((s.fab.ports.filter (fun (q : FabPort) => q.up)).map (fun (q : FabPort) => q.id)) ++
    ((s.fab.brg.filter (fun (q : BrgPort) => q.up)).map (fun (q : BrgPort) => 128 + q.id))).filter (fun n => bufferDie s n == d)

/-- Slots of a die's shared pool that nobody holds: 96 MiB less floors, port pools and what is lent. -/
def sharedFree (s : State) (d : Nat) : Nat :=
  6291456 - ((diePorts s d).map fun n => 8 * 516 + poolSlots s n + lentTo s n).sum

/-- The shared-pool ceiling of a fabric port in slots (Table 19-6); a bridge port has none and is lent nothing. -/
def ceilSlots (s : State) (n : Nat) : Nat := if n < 128 then bitsAt (fabReg s n) 16 16 * 4096 else 0

/-- Slots of the buffer that packets of a port and channel occupy. -/
def occupied (s : State) (n v : Nat) : Nat :=
  ((((buffered s).filterMap (fun x => x.1.map (fun o => (o, pktSlots x.2)))).filter
    (fun x => x.1.port == n && x.1.vc.toNat == v)).eraseDups.map (fun x => x.2)).sum

/-- Lends a largest packet's space to each channel of a fabric port whose peer holds less than that, within the ceiling. -/
def lend (s : State) (n : Nat) : State :=
  (List.range 8).foldl (fun s v => match fabPort s n with
    | none => s
    | some q =>
      if q.owed.getD v 0 = 0 && decide (q.given.getD v 0 < 258 + occupied s n v)
          && decide (lentTo s n + 258 ≤ ceilSlots s n) && decide (258 ≤ sharedFree s (bufferDie s n)) then
        updFab s n fun q => { q with given := addAt q.given v 258, owed := addAt q.owed v 258 }
      else s) s

/-- Takes back what is owed on channels that hold lent space, once the port is over its ceiling or the pool is spent: those
credits are withheld. -/
def takeBackLent (s : State) (n : Nat) : State :=
  if lentTo s n ≤ ceilSlots s n ∧ 0 < sharedFree s (bufferDie s n) then s
  else (List.range 8).foldl (fun s v => updFab s n fun q =>
    let k := min (q.owed.getD v 0) (q.given.getD v 0 - baseSlots s n v)
    { q with given := subAt q.given v k, owed := subAt q.owed v k }) s

/-- Entries held against the switch's tracker limit: at the home, and at attachment where no home entry is (R98). -/
def trackerUse (s : State) : Nat :=
  s.dir.trk.length +
    (s.fab.att.filter (fun e => !s.dir.trk.any (fun t => t.req.agent == e.agent && t.req.tag == e.tag))).length

/-- Entries of requests that entered by a port (Table 4-7). -/
def portEntries (s : State) (n : Nat) : Nat :=
  (s.fab.att.filter (fun e => e.port == n)).length + (s.fab.entered.filter (fun x => x.2.2 == n)).length

/-- Whether REQ-R and REQ-B credits of a port are withheld (Table 4-7); near the switch's limit as many ports get some in a tick
as entries are free. -/
def withheld (s : State) (n : Nat) : Bool :=
  decide (trackerUse s + s.fab.returned ≥ 1048576) || decide (s.dir.replay.length ≥ 16777216)
    || decide (portEntries s n ≥ 32768)

/-- Bytes of reserved classes on an egress queue. -/
def reservedBacklog (s : State) (n : Nat) : Nat :=
  ((portQueue s n).filter (fun x => isReservedVc x.pkt.vc.toNat)).foldl (fun k x => k + 16 * pktSlots x.pkt) 0

/-- Whether some egress holds more reserved-class backlog than it drains in 577 ns (R67). -/
def backlogFull (s : State) : Bool :=
  (s.fab.ports.map (fun (q : FabPort) => q.id) ++ s.fab.brg.map (fun (q : BrgPort) => 128 + q.id)).any
    (fun n => decide (reservedBacklog s n > 577 * portRate s n))

/-- Whether credits of a channel are withheld: of requests at a limit of Table 4-7, of REQ-B while best-effort requests of the
port wait for tokens (R93), of REQ-R and DAT-R while an egress is at its reserved backlog (R67). -/
def channelHeld (s : State) (n v : Nat) : Bool :=
  (decide (v ≤ 1) && withheld s n) || (v == 1 && s.fab.tokenWait.any (fun x => x.1.port == n))
    || ((v == 0 || v == 5) && backlogFull s)

/-- The credit returns of the next flit: the two lowest channels that are owed slots, up to 2,047 each. -/
def creditReturn (s : State) (n : Nat) (owed : List Nat) : (Nat × Nat) × (Nat × Nat) :=
  let vcs := (List.range 8).filter fun v => decide (owed.getD v 0 > 0) && !channelHeld s n v
  let one := fun (k : Nat) => match vcs[k]? with
    | some v => (v, min 2047 (owed.getD v 0))
    | none => (0, 0)
  (one 0, one 1)

/-- Notes that a port was given credits of a request channel (R98). -/
def noteReturn (s : State) (n : Nat) (a b : Nat × Nat) : State :=
  if (a.1 ≤ 1 ∧ 0 < a.2) ∨ (b.1 ≤ 1 ∧ 0 < b.2) then
    { s with fab := { s.fab with turn := n, returned := s.fab.returned + 1 } }
  else s

/-! ### Sending flits (R48, R50, R53, R378) -/

/-- A flit leaves: its bytes are formed once; a data flit is kept for retry. -/
def sendFlit (s : State) (n : Nat) (f : TxFlit) : State :=
  match fabPort s n with
  | none => s
  | some q =>
    let f := { f with
      seq := q.txSeq, ack := q.rxSeq
      wire := wireOf q.lanes q.sess (beBytes 8 (flitWord { f with seq := q.txSeq, ack := q.rxSeq })) (slotBytes f) }
    let s := updFab s n fun q => { q with
      replay := if f.kind = 0 then q.replay ++ [f] else q.replay
      txSeq := if f.kind = 0 then q.txSeq + 1 else q.txSeq
      owed := subAt (subAt q.owed f.a.1 f.a.2) f.b.1 f.b.2
      sess := { q.sess with txCount := if q.sess.phase = 6 then q.sess.txCount + 1 else q.sess.txCount } }
    noteReturn (say s (.flit n f)) n f.a f.b

/-- A link control flit leaves. -/
def sendCtl (s : State) (n code : Nat) (content : List Byte) : State :=
  match fabPort s n with
  | none => s
  | some q =>
    let body := (content ++ List.replicate 400 0).take 400
    let wire := wireOf q.lanes q.sess (beBytes 8 (flitWord { seq := q.txSeq, ack := q.rxSeq, kind := 3 })) body
    say (updFab s n fun q => { q with
      sess := { q.sess with txCount := if q.sess.phase = 6 then q.sess.txCount + 1 else q.sess.txCount } })
      (.linkCtl n code content wire)

/-- A retry request: its ack names the flit to resume from. -/
def sendRetry (s : State) (n : Nat) : State :=
  match fabPort s n with
  | none => s
  | some q =>
    let f : TxFlit := { seq := q.txSeq, ack := q.rxSeq, kind := 2 }
    say (updFab s n fun q => { q with
      sess := { q.sess with txCount := if q.sess.phase = 6 then q.sess.txCount + 1 else q.sess.txCount } })
      (.flit n { f with wire := wireOf q.lanes q.sess (beBytes 8 (flitWord f)) (slotBytes f) })

/-! ### Egress (R65 to R67) -/

/-- Egress priority of a virtual channel (Table 3-4). -/
def vcRank (vc : BitVec 3) : Nat :=
  match vc.toNat with
  | 7 => 1
  | 2 => 2
  | 3 => 3
  | 4 => 4
  | 0 => 5
  | 5 => 5
  | _ => 6

/-- The packet the egress serves next: the head of its channel, credits for all its slots, the best priority, the oldest
within one priority (R67). -/
def nextOf (queue : List Queued) (credits : List Nat) : Option Queued :=
  let heads := queue.filter fun x =>
    ((queue.find? (fun r => r.pkt.vc == x.pkt.vc)) == some x) && decide (creditOf credits x.pkt.vc ≥ pktSlots x.pkt)
  maxBy (fun x => 6 - vcRank x.pkt.vc) heads

def nextToSend (q : FabPort) : Option Queued := nextOf q.queue q.credits

/-- The data flits of a packet, from slot `first` on: 25 slots each (R52). -/
def flitsOf (p : Packet) : Nat → Nat → List TxFlit
  | 0, _ => []
  | n + 1, first =>
    { seq := 0, pkt := some p, first := first, slots := min 25 (pktSlots p - first), firstHdr := if first = 0 then 0 else 31 }
      :: flitsOf p n (first + 25)

/-- Number of flits of `k` slots. -/
def flitCount (k : Nat) : Nat := (k + 24) / 25

/-- Sends the flits of a packet; each carries what credits are owed. -/
def sendFlits (s : State) (n : Nat) (fs : List TxFlit) : State :=
  fs.foldl (fun s f =>
    let (a, b) := creditReturn s n (((fabPort s n).map (fun q => q.owed)).getD [])
    sendFlit s n { f with a := a, b := b }) s

/-- Sends one packet of the queue of a port, if one can be sent and the replay buffer of 1,024 flits holds it (R53). -/
def egressOne (s : State) (n : Nat) : State :=
  match fabPort s n with
  | none => s
  | some q =>
    if !q.up || q.sess.phase != 6 || q.cutting.isSome then s
    else match nextToSend q with
    | none => s
    | some x =>
      let k := pktSlots x.pkt
      if q.replay.length + flitCount k > 1024 then s
      else
        let s := updFab s n fun q => { q with queue := q.queue.erase x, credits := subAt q.credits x.pkt.vc.toNat k }
        freeOrigin (sendFlits s n (flitsOf x.pkt (flitCount k) 0)) x.org k

/-- An idle flit with the acknowledgement and the credits owed (Table 3-3). -/
def idleOne (s : State) (n : Nat) : State :=
  match fabPort s n with
  | none => s
  | some q =>
    let (a, b) := creditReturn s n q.owed
    if !q.up || q.sess.phase != 6 || a.2 + b.2 = 0 then s else sendFlit s n { seq := 0, kind := 1, a := a, b := b }

/-- Sends what a packet being cut through has ready: whole flits, its last slots, or the abort that ends it (R52, R66), while the
replay buffer has room. -/
def cutPump : Nat → State → Nat → State
  | 0, s, _ => s
  | k + 1, s, m =>
    match fabPort s m with
    | none => s
    | some e => match e.cutting with
      | none => s
      | some c =>
        let size := pktSlots c.q.pkt
        if e.replay.length ≥ 1024 then s
        else if c.aborting then
          freeOrigin (sendFlit (updFab s m fun q => { q with cutting := none }) m { seq := 0, abort := true }) c.q.org size
        else if c.got - c.sent < 25 ∧ c.got < size ∨ c.got ≤ c.sent then s
        else
          let n := min 25 (c.got - c.sent)
          let s := updFab s m fun q => { q with
            cutting := if c.sent + n ≥ size then none else some { c with sent := c.sent + n } }
          let s := sendFlits s m [{
            seq := 0, pkt := some c.q.pkt, first := c.sent, slots := n, firstHdr := if c.sent = 0 then 0 else 31 }]
          cutPump k (if c.sent + n ≥ size then freeOrigin s c.q.org size else s) m

/-- What one fabric port sends in a tick. -/
def portTick (s : State) (n : Nat) : State := idleOne (egressOne (cutPump 11 (takeBackLent (lend s n) n) n) n) n

/-- What the fabric ports send in one tick, in rotating order (R98). -/
def egressAll (s : State) : State :=
  let ids := s.fab.ports.map (fun p => p.id)
  let s := { s with fab := { s.fab with returned := 0 } }
  (ids.filter (fun n => decide (s.fab.turn < n)) ++ ids.filter (fun n => decide (n ≤ s.fab.turn))).foldl portTick s

/-! ### Port down (R73) -/

/-- Packets that a port going down flushes: those not acknowledged and the one being cut through, then its queues. -/
def flushedOf (q : FabPort) : List Packet :=
  (q.replay.filterMap (fun f => f.pkt) ++ (q.cutting.map (fun c => c.q.pkt)).toList).eraseDups ++ q.queue.map (fun x => x.pkt)

/-- Every agent whose path sets are known or that attaches here. -/
def knownAgents (s : State) : List AgentId :=
  ((s.fab.attach.map (fun a => a.agent)) ++
    (s.fab.routes.flatMap (fun r => r.paths)).filterMap (fun p => match p.key with
      | .agent a => some a
      | .home _ => none)).eraseDups

/-- Notes when the last up port toward an agent was lost, and forgets agents that are reachable again (R124). -/
def noteRoutes (s : State) : State :=
  let gone := (knownAgents s).filter (fun a => !agentReachable s a)
  let kept := s.fab.noRoute.filter (fun x => gone.contains x.1)
  { s with fab := { s.fab with
      noRoute := kept ++ ((gone.filter (fun a => !kept.any (fun x => x.1 == a))).map (fun a => (a, s.time.now))) } }

/-- Abandons the cut-throughs of the packet arriving on a port: each egress sends an abort flit, and no copy is kept. -/
def abortCuts (s : State) (n : Nat) : State :=
  match fabPort s n with
  | none => s
  | some q =>
    let s := updFab s n fun q => { q with cutTo := [], stalled := [], copies := [], partialIn := none, cutIn := false }
    q.cutTo.foldl (fun s m =>
      cutPump 11 (updFab s m fun q => { q with cutting := q.cutting.map fun c => { c with aborting := true } }) m) s

/-- The packets still arriving that were to leave on an egress that goes down; they are flushed with its queues. -/
def dropEgress (s : State) (n : Nat) : State × List Packet :=
  let gone := s.fab.ports.flatMap fun q =>
    (q.stalled.filter (fun x => x.1 == n)).map (fun x => x.2.pkt) ++ (q.copies.filter (fun x => x.1 == some n)).map (fun x => x.2.pkt)
  ({ s with fab := { s.fab with ports := s.fab.ports.map fun q => { q with
      cutTo := q.cutTo.filter (· != n), stalled := q.stalled.filter (fun x => x.1 != n)
      copies := q.copies.filter (fun x => x.1 != some n) } } }, gone)

/-- The ports that are up. -/
def upPorts (s : State) : List Nat := (List.range 160).filter (portUp s)

/-- Opens the shadow window of a port that goes down; `before` were up until then (R73). -/
def openShadow (s : State) (n : Nat) (before : List Nat) : State :=
  { s with fab := { s.fab with shadows := s.fab.shadows.filter (fun x => x.1 != n) ++ [(n, s.time.now, before)] } }

/-- A fabric port goes down: removed from every live path set, its former place kept as a shadow set; queues flushed and
reported; partial inbound packets discarded and cut-through from it aborted. -/
def fabDown (s : State) (n : Nat) : State :=
  match fabPort s n with
  | none => s
  | some q =>
    if !q.up then s
    else
      let before := upPorts s
      let left := q.queue ++ (q.cutting.map (fun c => c.q)).toList
      let s := abortCuts s n
      let (s, more) := dropEgress s n
      let lost := flushedOf q ++ more
      let s := updFab s n fun q => { q with
        up := false, downs := q.downs + 1, flushed := q.flushed + lost.length
        txSeq := 0, rxSeq := 0, replay := [], queue := [], cutting := none, failRun := 0, askRun := (0, 0), retryTimes := []
        retryAsked := false, credits := List.replicate 8 0, owed := List.replicate 8 0, given := List.replicate 8 0
        resess := none, sess := { hs := q.sess.hs, backoff := q.sess.backoff, retryAt := q.sess.retryAt } }
      noteRoutes (reportFlush (openShadow (freeAll s left) n before) lost)

/-- A bridge port goes down. -/
def brgDown (s : State) (k : Nat) : State :=
  match brgPort s k with
  | none => s
  | some q =>
    if !q.up then s
    else
      let before := upPorts s
      let left := (q.unacked.flatMap (fun f => f.packets)) ++ q.queue
      let lost := left.map (fun x => x.pkt)
      let s := updBrg s k fun q => { q with
        up := false, downs := q.downs + 1, flushed := q.flushed + lost.length, unacked := [], queue := []
        txSeq := 0, rxSeq := 0, ackOwed := none, credits := List.replicate 8 0, owed := List.replicate 8 0
        given := List.replicate 8 0
        resess := none, sess := { hs := q.sess.hs, backoff := q.sess.backoff, retryAt := q.sess.retryAt } }
      noteRoutes (reportFlush (openShadow (freeAll s left) (128 + k) before) lost)

/-- A flex port goes down: the link, its IDE keys and its tray (R404, R171). -/
def flexDown (s : State) (k : Nat) : State :=
  noteRoutes (updFlex s k fun q => { q with
    up := false, secured := false, ideActive := false, keys := [], biEnable := false, snoops := [], unique := [], partials := []
    sent := [], again := [], held := [] })

/-- PORT_DOWN by the port's kind (R73). -/
def portDown (s : State) (n : Nat) : State :=
  if n < 128 then fabDown s n else if n < 144 then brgDown s (n - 128) else flexDown s (n - 144)

/-! ### Receiving flits (R52, R53) -/

/-- Drops the flits that an acknowledgement covers. -/
def dropAcked (l : List TxFlit) (ack next : BitVec 12) : List TxFlit :=
  if l.any (fun f => f.seq == ack) then l.dropWhile (fun f => f.seq != ack) else if ack = next then [] else l

/-- The acknowledgement and the credit returns of an accepted flit (R53, R56). -/
def takeHeader (s : State) (n : Nat) (h : FlitHdr) : State :=
  updFab s n fun q => { q with
    replay := dropAcked q.replay h.ack q.txSeq
    credits := addAt (addAt q.credits h.cvcA.toNat h.ccntA.toNat) h.cvcB.toNat h.ccntB.toNat }

/-- The retries of a port within the last 1 ms, this one included. -/
def retriesNow (s : State) (q : FabPort) : List Nat := q.retryTimes.filter (fun t => decide (s.time.now < t + 1000000)) ++ [s.time.now]

/-- Counts a retry and applies the limits of R54: 8 failures of one seq in succession, 1,000 retries within 1 ms. -/
def countRetry (s : State) (n run : Nat) : State :=
  match fabPort s n with
  | none => s
  | some q =>
    let l := retriesNow s q
    let s := updFab s n fun q => { q with retries := q.retries + 1, retryTimes := l }
    if run ≥ 8 ∨ l.length > 1000 then portDown s n else s

/-- A flit failed: it is discarded and a retry request sent; `same` if it is the seq that is awaited. -/
def flitFailed (s : State) (n : Nat) (same : Bool) : State :=
  match fabPort s n with
  | none => s
  | some q =>
    let run := if same then q.failRun + 1 else q.failRun
    countRetry (sendRetry (updFab s n fun q => { q with failRun := run, retryAsked := true }) n) n run

/-! ### Cut-through (R65, R66, R70) -/

/-- The room filter of the ingress switch, as far as it knows the room (R27): only the home's verdict counts, but a request that
fails is not cut through. -/
def filterPasses (s : State) (n : Nat) (p : Packet) : Bool :=
  !(agentPort s n && byGfa p) || (isMember s p.src p.room && liveEpoch s p.room p.epoch)

/-- Whether an egress takes a packet as a cut-through from a port (R65). -/
def canCut (s : State) (i : FabPort) (m : Nat) (p : Packet) : Bool :=
  match fabPort s m with
  | some e => decide (m < 128) && portUp s m && e.queue.isEmpty && e.cutting.isNone && decide (e.lanes ≤ i.lanes)
      && decide (creditOf e.credits p.vc ≥ pktSlots p)
  | none => false

/-- The entries of a packet of the buffer on the egress queues. -/
def entriesOf (s : State) (o : Origin) : List (Nat × Queued) :=
  (s.fab.ports.flatMap fun q => (q.queue.filter (fun x => x.org == some o)).map fun x => (q.id, x)) ++
    (s.fab.brg.flatMap fun q => (q.queue.filter (fun x => x.org == some o)).map fun x => (128 + q.id, x))

/-- Takes the entries of a packet off the egress queues. -/
def liftEntries (s : State) (o : Origin) : State :=
  { s with fab := { s.fab with
      ports := s.fab.ports.map fun q => { q with queue := q.queue.filter (fun x => x.org != some o) }
      brg := s.fab.brg.map fun q => { q with queue := q.queue.filter (fun x => x.org != some o) } } }

/-- Starts the cut-through of a packet on an egress. -/
def startCut (s : State) (got : Nat) (x : Nat × Queued) : State :=
  cutPump 11 (updFab s x.1 fun e => { e with
    cutting := some { q := x.2, got := got }, credits := subAt e.credits x.2.pkt.vc.toNat (pktSlots x.2.pkt) }) x.1

/-- Puts copies of a stored packet where they go: an egress queue, or this switch's own units. -/
def placeCopies (s : State) (l : List (Option Nat × Queued)) : State :=
  l.foldl (fun s x => match x.1 with
    | none => { s with fab := { s.fab with inbox := s.fab.inbox ++ [x.2.pkt] } }
    | some m =>
      if m < 128 then updFab s m fun q => { q with queue := q.queue ++ [x.2] }
      else updBrg s (m - 128) fun q => { q with queue := q.queue ++ [x.2] }) s

/-- The header of a packet that is still arriving has passed integrity: the packet is acted on now if some egress takes it as a
cut-through (its other copies wait until it is stored), otherwise once it is stored. -/
def openPacket (s : State) (n : Nat) (p : Packet) (k : Nat) : State :=
  let (s, o) := newOrigin s n p.vc
  let x : Queued := { pkt := p, org := some o }
  match fabPort s n with
  | none => s
  | some i =>
    let t := ingressOf s o p
    let es := entriesOf t o
    let cuts := if filterPasses s n p then es.filter (fun e => canCut s i e.1 e.2.pkt) else []
    if cuts.isEmpty then updFab s n fun q => { q with partialIn := some (x, k), cutIn := false }
    else
      let rest := (es.filter (fun e => !cuts.contains e)).map (fun e => (some e.1, e.2)) ++
        (t.fab.inbox.drop s.fab.inbox.length).map (fun r => ((none : Option Nat), { x with pkt := r }))
      let t := liftEntries { t with fab := { t.fab with inbox := s.fab.inbox } } o
      let t := updFab t n fun q => { q with
        partialIn := some (x, k), cutIn := true, cutTo := cuts.map (fun e => e.1), copies := rest, stalled := [] }
      cuts.foldl (fun s e => startCut s k e) t

/-- The packet that was arriving on a port is stored. -/
def storePacket (s : State) (n : Nat) (x : Queued) : State :=
  match fabPort s n, x.org with
  | some q, some o =>
    let s := updFab s n fun q => { q with partialIn := none, cutIn := false, cutTo := [], stalled := [], copies := [] }
    let s := if q.cutIn then
        q.stalled.foldl (fun s e => updFab s e.1 fun f => { f with queue := e.2 :: f.queue }) (placeCopies s q.copies)
      else ingressOf s o x.pkt
    freeOrigin s (some o) (pktSlots x.pkt)
  | _, _ => s

/-- A packet starts in a flit, with `k` of its slots there. -/
def startPiece (s : State) (n : Nat) (p : Packet) (k : Nat) : State :=
  if !headerOk p then
    updFab s n fun q => { q with malformed := q.malformed + 1, owed := addAt q.owed p.vc.toNat (pktSlots p), partialIn := none }
  else if k ≥ pktSlots p then ingress s n p
  else openPacket s n p k

/-- `k` further slots of the packet in progress. -/
def morePiece (s : State) (n : Nat) (k : Nat) : State :=
  match fabPort s n with
  | some q =>
    match q.partialIn with
    | none => s
    | some (x, had) =>
      let got := min (pktSlots x.pkt) (had + k)
      let s := q.cutTo.foldl (fun s m => cutPump 11 (updFab s m fun e => { e with
        cutting := e.cutting.map fun c => { c with got := got } }) m) s
      if got = pktSlots x.pkt then storePacket s n x else updFab s n fun q => { q with partialIn := some (x, got) }
  | none => s

def takePiece (s : State) (n : Nat) : Piece → State
  | .more k => morePiece s n k
  | .start p k => startPiece s n p k

/-- A flit with abort set ends the packet in progress; its credits are returned (R52). -/
def abortIn (s : State) (n : Nat) : State :=
  match fabPort s n with
  | some q =>
    match q.partialIn with
    | some (x, _) => freeOrigin (abortCuts s n) x.org (pktSlots x.pkt)
    | none => s
  | none => s

/-- A data flit on a fabric port (R52, R53). -/
def dataFlitIn (s : State) (n : Nat) (h : FlitHdr) (ps : List Piece) : State :=
  match fabPort s n with
  | none => s
  | some q =>
    if !q.up || q.sess.phase != 6 then s
    else if !h.intact && h.seq == q.rxSeq then flitFailed s n true
    else if h.seq != q.rxSeq then (if q.retryAsked then s else flitFailed s n false)
    else
      let s := updFab (takeHeader s n h) n fun q => { q with
        rxSeq := q.rxSeq + 1, failRun := 0, retryAsked := false
        sess := if q.sess.rxSwitch = some h.seq then { q.sess with rxSwitch := none, kRxOld := 0 } else q.sess }
      let s := if h.abort then abortIn s n else s
      ps.foldl (fun s p => takePiece s n p) s

/-! ### Meanings -/

/-- DATA_FLIT (R53). -/
def execDataFlit (port : Nat) (h : FlitHdr) (pieces : List Piece) (s : State) : Host.Outcome State Fault Refusal :=
  .next (if isRunning s then dataFlitIn s port h pieces else s)

/-- IDLE_FLIT (Table 3-3, R53): its acknowledgement and credits count when it passes integrity. -/
def execIdleFlit (port : Nat) (h : FlitHdr) (s : State) : Host.Outcome State Fault Refusal :=
  .next (if isRunning s && h.intact && portUp s port && decide (port < 128) then takeHeader s port h else s)

/-- RETRY_REQUEST (R53): every flit from the named seq on is sent again, bit for bit as first sent. -/
def execRetryRequest (port : Nat) (h : FlitHdr) (s : State) : Host.Outcome State Fault Refusal :=
  .next (match fabPort s port with
    | none => s
    | some q =>
      if isRunning s && h.intact && q.up then
        let run := if q.askRun.1 = h.ack then q.askRun.2 + 1 else 1
        let s := updFab (takeHeader s port h) port fun q => { q with askRun := (h.ack, run) }
        let s := match fabPort s port with
          | some q => if (q.replay.head?.map (fun f => f.seq)) == some h.ack then { s with out := s.out ++ q.replay.map (.flit port) } else s
          | none => s
        pump (countRetry s port run)
      else s)

/-- LINK_CONTROL (R56, R73): the initial credits, or the peer's link-down. -/
def execLinkControl (port : Nat) (h : FlitHdr) (c : LinkCtl) (s : State) : Host.Outcome State Fault Refusal :=
  .next (match fabPort s port with
    | none => s
    | some q =>
      if isRunning s && h.intact && q.up then
        match c with
        | .credits l => updFab (takeHeader s port h) port fun q => { q with credits := (l ++ List.replicate 8 0).take 8 }
        | .linkDown => portDown s port
      else s)

/-- CUT_THROUGH_STALL (R66): the egress aborts the packet, which is sent again in full once it is stored. -/
def execCutThroughStall (port : Nat) (s : State) : Host.Outcome State Fault Refusal :=
  .next (match fabPort s port with
    | some e =>
      match e.cutting with
      | some c =>
        if c.got = pktSlots c.q.pkt then s
        else
          let s := { s with fab := { s.fab with ports := mapIf (fun (q : FabPort) => q.cutTo.contains port) (fun q => { q with
            cutTo := q.cutTo.filter (· != port), stalled := q.stalled ++ [(port, c.q)] }) s.fab.ports } }
          cutPump 11 (updFab s port fun q => { q with cutting := some { c with aborting := true } }) port
      | none => s
    | none => s)

/-- PORT_DOWN (R73). -/
def execPortDown (port : Nat) (s : State) : Host.Outcome State Fault Refusal :=
  .next (if isRunning s then pump (portDown s port) else s)

/-- SHADOW_SET_DROP (R73): T_dead after the port went down. -/
def execShadowSetDrop (port : Nat) (s : State) : Host.Outcome State Fault Refusal :=
  .next { s with fab := { s.fab with shadows := s.fab.shadows.filter fun x =>
    !(x.1 == port && decide (x.2.1 + tDead s ≤ s.time.now)) } }

end Sys2Proof.Machine
end

