-- ==== Sys2Proof/Machine/Own.lean ====
section
/-!
DEFINITION. Machine/Own.lean: the memory requests of this switch's own agent: engines, slots and tags (R97, R98, R103, R465),
their packets (Tables 4-1, 4-3), their issue in flows (R75, R87), their answers (R33, R35), and the sync operations that the
switch performs as its own agent (R151).
-/

namespace Sys2Proof.Machine

/-! ### Packets -/

/-- Payload of a request (Tables 4-3, 6-10). -/
def ownPayload (q : OwnReq) : List Byte :=
  match q.op with
  | .st d => d
  | .amo _ a => leBytes 16 a.toNat
  | .cas c w => leBytes (if q.nb = 15 then 16 else 8) c.toNat ++ leBytes (if q.nb = 15 then 16 else 8) w.toNat
  | .sync .cas a b _ => leBytes 8 a.toNat ++ leBytes 8 b.toNat
  | .sync _ a _ t => leBytes 8 a.toNat ++ leBytes 4 t ++ List.replicate 4 0
  | _ => []

/-- Header word 3 of a request (Table 4-1). -/
def ownWord3 (q : OwnReq) : Word :=
  let v := match q.op with
    | .ld v => if v then 1 else 0
    | _ => 0
  let aop := match q.op with
    | .amo a _ => a.toNat
    | _ => 0
  let handle := match q.op with
    | .ldSnap h => h.toNat
    | _ => 0
  fieldOf 63 1 v ||| fieldOf 56 7 q.nb.toNat ||| fieldOf 52 4 aop ||| fieldOf 48 4 q.gen.toNat ||| fieldOf 32 16 handle

/-- The packet of an own request: REQ-R or REQ-B by its class, dst zero (R58, R79). -/
def ownPacket (s : State) (q : OwnReq) : Packet :=
  { mkPacket s (opOpcode q.op) (if q.wcls = 0b10 then vcReqB else vcReqR) q.ocls q.wcls q.room 0 q.tag q.gfa (ownWord3 q)
      (ownPayload q) with epoch := q.epoch }

/-- The request as its home takes it, when this switch is the home. -/
def ownAsReq (s : State) (q : OwnReq) : Req :=
  { agent := selfAgent s, tag := q.tag, gen := q.gen, room := q.room, epoch := q.epoch, ocls := q.ocls, wcls := q.wcls
    gfa := q.gfa, nb := q.nb, ce := false, port := none }

/-! ### Issue -/

/-- Two own requests of one flow: home and ordering class (R75, R87). -/
def sameOwnFlow (a b : OwnReq) : Bool := homeOf a.gfa == homeOf b.gfa && a.ocls == b.ocls

/-- A flow that a flush notice has stopped (R75). -/
def flowStopped (s : State) (q : OwnReq) : Bool := s.own.sent.any (fun x => x.flushed && sameOwnFlow x q)

/-- The lowest free slot of an engine (R97); map messages hold slots too (R163). -/
def freeSlot (s : State) (engine : Nat) : Option Nat :=
  (List.range 512).find? (fun k => !s.own.sent.any (fun q => q.tag == BitVec.ofNat 20 (engine * 512 + k))
    && !(movers s).any (fun m => m.tag == some (BitVec.ofNat 20 (engine * 512 + k))))

/-- The gen of the next new request on a tag: one above the last (R103). -/
def nextGen (s : State) (tag : Tag) : Gen :=
  match s.own.gens.find? (fun x => x.1 == tag) with
  | some x => x.2 + 1
  | none => 0

/-- Hands an outstanding request to its home: the slice here, or the switch core. -/
def launch (s : State) (q : OwnReq) : State :=
  if isHome s (homeOf q.gfa) then homeRequest s (ownAsReq s q) q.op else emit s (ownPacket s q)

/-- Gives a request its slot, tag, gen and epoch, and issues it (R33, R97, R103). -/
def sendOwn (s : State) (q : OwnReq) (slot : Nat) : State :=
  let tag : Tag := BitVec.ofNat 20 (q.engine * 512 + slot)
  let q := { q with tag := tag, gen := nextGen s tag, epoch := requestEpoch s q.room, sentAt := s.time.now }
  launch { s with own := { s.own with
    sent := s.own.sent ++ [q]
    gens := s.own.gens.filter (fun x => x.1 != tag) ++ [(tag, q.gen)] } } q

/-- Issues a request, or lets it wait: for its flow, for an earlier request of an ordered flow that waits, or for a slot
(R75, R87, R98). -/
def issueOne (s : State) (q : OwnReq) : State :=
  if flowStopped s q || (q.ocls != 0 && s.own.asks.any (sameOwnFlow q)) then
    { s with own := { s.own with asks := insertAsk q s.own.asks } }
  else match freeSlot s q.engine with
    | some k => sendOwn s q k
    | none => { s with own := { s.own with asks := insertAsk q s.own.asks } }

/-- Issues what waits, in order of asking. -/
def issueAsks (s : State) : State :=
  s.own.asks.foldl issueOne { s with own := { s.own with asks := [] } }

/-- Adds a request to those that wait. -/
def addAsk (s : State) (who : OwnFor) (engine : Nat) (op : Op) (g : Word) (n : Nat) (room : RoomId) (ocls wcls : BitVec 2) :
    State :=
  { s with own := { s.own with
    next := s.own.next + 1
    asks := s.own.asks ++ [{ n := s.own.next, who := who, engine := engine, op := op, gfa := g
                             nb := BitVec.ofNat 7 (n - 1), room := room, ocls := ocls, wcls := wcls }] } }

/-- Asks for one request of `n` bytes and issues what can go. -/
def askOwn (s : State) (who : OwnFor) (engine : Nat) (op : Op) (g : Word) (n : Nat) (room : RoomId) (ocls wcls : BitVec 2) :
    State :=
  issueAsks (addAsk s who engine op g n room ocls wcls)

/-- A porter begins a pass over a tile: one chunk, under the epoch that is current now, on the porter's engine (R36, R465). -/
def startPass (s : State) (p : Nat) (key : Nat) : State :=
  let tag : Tag := BitVec.ofNat 20 ((144 + p) * 512)
  let q : OwnReq :=
    { n := s.own.next, who := .porter p, engine := 144 + p, op := .ld false, gfa := tileGfa key, nb := 63, room := tileRoom s key
      wcls := 1, tag := tag, gen := nextGen s tag, epoch := requestEpoch s (tileRoom s key), sentAt := s.time.now }
  { s with own := { s.own with
    next := s.own.next + 1, sent := s.own.sent ++ [q], gens := s.own.gens.filter (fun x => x.1 != tag) ++ [(tag, q.gen)] } }

/-! ### Flush notices and answers -/

/-- A flush notice names an own request by tag and epoch: its flow stops (R75). -/
def noteFlushed (s : State) (tag : Tag) (epoch : Epoch) : State :=
  { s with own := { s.own with
    sent := mapIf (fun q => q.tag == tag && q.epoch == epoch) (fun q => { q with flushed := true }) s.own.sent } }

/-- A flushed request may go again: no earlier request of its flow that was not flushed is outstanding (R75). -/
def mayReissue (s : State) (q : OwnReq) : Bool :=
  q.flushed && !s.own.sent.any (fun x => !x.flushed && sameOwnFlow x q &&
    s.own.sent.any (fun y => y.flushed && sameOwnFlow y q && decide (x.n < y.n)))

/-- Reissues flushed requests in their original order, with the original tag, gen and epoch; their flows resume (R75). -/
def reissueFlushed (s : State) : State :=
  let go := s.own.sent.filter (mayReissue s)
  if go.isEmpty then s
  else
    let sent := mapIf (mayReissue s) (fun q => { q with flushed := false, sentAt := s.time.now }) s.own.sent
    issueAsks (go.foldl launch { s with own := { s.own with sent := sent } })

/-- A response for this switch's own agent (R33, R100). -/
def ownResponse (s : State) (p : Packet) : State :=
  issueAsks (reissueFlushed (ownAnswer (learnEpoch s p.room p.epoch) p.tag (p.w3.extractLsb' 52 4) (p.w3.extractLsb' 56 8) p.data))

/-- A porter's pass ends by MOVE_PASS_END, not by an answer. -/
def isPass : OwnFor → Bool
  | .porter _ => true
  | _ => false

/-- No response by t_a + T_dead - 250 ns: an own request gets status 0x04, with its fault record (R100). -/
def ownDead (s : State) (tag : Tag) (gen : Gen) : State :=
  match s.own.sent.find? (fun q => q.tag == tag && q.gen == gen) with
  | none => s
  | some q =>
    if s.time.now < q.sentAt + tDead s - 250 || isPass q.who then s
    else
      let s := addFault s { mkFault 0x01 0 q.gfa.toNat with
        room := q.room, status := 0x04, agent := selfAgent s, tag := BitVec.ofNat 32 q.tag.toNat }
      issueAsks (reissueFlushed (ownAnswer s tag gen 0x04 (List.replicate (q.nb.toNat + 1) 0xFF)))

/-! ### What units ask -/

/-- Whether a unit still has a request that is not answered. -/
def awaits (s : State) (who : OwnFor) : Bool := (s.own.asks ++ s.own.sent).any (fun q => q.who == who)

/-- The key of a line read by LD_SNAP, beside the line's own key for LD. -/
def snapKey (line : Nat) : Nat := line + 2 ^ 58

/-- The answer to a read of a line, by either key, that a unit has not used yet. -/
def gotLine (s : State) (who : OwnFor) (line : Nat) : Option OwnGot :=
  s.own.got.find? (fun y => y.isRead && y.who == who && (if y.snap then snapKey (lineKey y.gfa) else lineKey y.gfa) == line)

/-- Drops the answers that a unit has used. -/
def dropGot (s : State) (who : OwnFor) : State :=
  { s with own := { s.own with got := s.own.got.filter (fun y => !(y.who == who && y.isRead)) } }

/-- Drops whatever a unit asked and has not used: its work is at an end. -/
def dropAsks (s : State) (who : OwnFor) : State :=
  { s with own := { s.own with
    asks := s.own.asks.filter (fun q => q.who != who)
    got := s.own.got.filter (fun y => y.who != who) } }

/-- A unit is gone: what it asked for stands, but nothing takes the answers. -/
def disown (s : State) (who : OwnFor) : State :=
  let f := mapIf (fun (q : OwnReq) => q.who == who) (fun q => { q with who := .notify })
  { s with own := { s.own with
    asks := f s.own.asks, sent := f s.own.sent, got := s.own.got.filter (fun y => y.who != who) } }

/-- Asks for lines that a unit has neither got nor asked for: one LD of the whole line each, or one LD_SNAP through a handle. -/
def askLines (s : State) (who : OwnFor) (engine : Nat) (handle : BitVec 16) (room : RoomId) (wcls : BitVec 2) (lines : List Nat) :
    State :=
  issueAsks (lines.foldl (fun s l =>
    let op : Op := if l < 2 ^ 58 then .ld false else .ldSnap handle
    if (gotLine s who l).isSome || (s.own.asks ++ s.own.sent).any (fun q => q.who == who && q.op == op && q.gfa == lineGfa l) then s
    else addAsk s who engine op (lineGfa l) 64 room 0 wcls) s)

/-- The switch's own SYNC_ADD of 1 on an object here (R151, R212): engine 518, under the admission of R147. -/
def ownSyncAdd (s : State) (room : RoomId) (n : Nat) : State :=
  askOwn s .notify 518 (.sync .add 1 0 0) (BitVec.ofNat 64 ((selfId s).toNat * 2 ^ 48 + n * 8)) 8 room 0 0

end Sys2Proof.Machine
end

