-- ==== Sys2Proof/Machine/Ledger.lean ====
section
/-!
DEFINITION. Machine/Ledger.lean: health states (R362, R363), the fields of a descriptor (R198, R199), ledger entries and
their mirror (R344 to R349), start order (R207) and completion records (R208 to R212).
-/

namespace Sys2Proof.Machine

/-! ### Health (R362, R363) -/

def healthCode : Health → Nat
  | .healthy => 0
  | .degraded => 1
  | .retiring => 2
  | .failed => 3

/-- Every lane goes down (Table 15-7). -/
def allLanesDown (s : State) : State :=
  let s := (s.fab.ports.map (fun p => p.id)).foldl fabDown s
  let s := (s.fab.brg.map (fun p => p.id)).foldl brgDown s
  (s.fab.flex.map (fun p => p.id)).foldl flexDown s

/-- Enters a health state: the record, the pin, and in Failed every lane down. -/
def enterHealth (s : State) (h : Health) : State :=
  if s.hlth.state = h ∨ s.hlth.state = .failed then s
  else
    let old := healthCode s.hlth.state
    let s := { s with hlth := { s.hlth with state := h, replace := true } }
    let s := addFault s (mkFault 0x09 (if h = .failed then 2 else 1) (old + healthCode h * 256))
    let s := say s (.pin 1 true)
    if h = .failed then
      let s := allLanesDown s
      { s with boot := { s.boot with power := .failed } }
    else s

/-- The first retirement, or the fall back of the mirror, moves Healthy to Degraded. -/
def degrade (s : State) : State := if s.hlth.state = .healthy then enterHealth s .degraded else s

/-! ### Descriptor fields (Tables 9-4, 9-5) -/

/-- Bytes [byte, byte + len) of a descriptor, little-endian. -/
def descField (d : BitVec 512) (byte len : Nat) : Nat := d.toNat / 2 ^ (8 * byte) % 2 ^ (8 * len)

/-- Writes bytes [byte, byte + len) of a descriptor. -/
def putField (d : BitVec 512) (byte len v : Nat) : BitVec 512 :=
  BitVec.ofNat 512 (d.toNat - descField d byte len * 2 ^ (8 * byte) + v % 2 ^ (8 * len) * 2 ^ (8 * byte))

def descWord (d : BitVec 512) (byte : Nat) : Word := BitVec.ofNat 64 (descField d byte 8)
def descOp (d : BitVec 512) : Nat := descField d 0 2 % 4096
def descBit (d : BitVec 512) (b : Nat) : Bool := descField d 0 2 / 2 ^ b % 2 == 1
def descRoom (d : BitVec 512) : RoomId := BitVec.ofNat 8 (descField d 2 1)
def descClass (d : BitVec 512) : Nat := descField d 3 1
def descSeq (d : BitVec 512) : BitVec 32 := BitVec.ofNat 32 (descField d 4 4)
def descDeadline (d : BitVec 512) : Nat := descField d 8 8

/-! ### Rings and entries -/

def ledgerEntry (s : State) (e : Nat) : Option Entry := s.ledger.entries.find? (fun x => x.n == e)

def updLedger (s : State) (e : Nat) (f : Entry → Entry) : State :=
  { s with ledger := { s.ledger with entries := mapIf (fun x => x.n == e) f s.ledger.entries } }

/-- The room of a ring's descriptors. -/
def entryRoom (en : Entry) : RoomId := descRoom en.desc

/-- `a` comes before `b` in a ring's sequence. -/
def seqBefore (a b : BitVec 32) : Bool := a != b && decide ((b - a).toNat < 2 ^ 31)

/-- A refused descriptor that waits for its final record. -/
def isRefused (en : Entry) : Bool := en.st == .mirroring && en.result.isSome

/-- Entries of a ring that come before this one, those whose acceptance is still being mirrored among them (R5). -/
def earlier (s : State) (en : Entry) : List Entry :=
  s.ledger.entries.filter fun x => x.ring == en.ring && x.adopted == en.adopted && seqBefore (descSeq x.desc) (descSeq en.desc)

/-- R207: every earlier descriptor has started, or was refused; with the barrier flag, has written its final record. -/
def canStart (s : State) (en : Entry) : Bool :=
  (earlier s en).all fun x => if descBit en.desc 12 then x.recorded else x.started || x.recorded || isRefused x

/-- A descriptor of opcode `op` runs: it is accepted, has no result yet, and may start. -/
def runs (s : State) (en : Entry) (op : Nat) : Bool :=
  descOp en.desc == op && (en.st == .accepted || en.st == .running) && en.result.isNone && isRunning s
    && (en.started || canStart s en)

/-- Marks an entry started (R207, R208). -/
def startEntry (s : State) (e : Nat) : State :=
  updLedger s e fun x => { x with started := true, st := .running, progAt := if x.started then x.progAt else s.time.now }

/-- Gives a descriptor its result. -/
def finish (s : State) (e : Nat) (r : Final) : State :=
  updLedger s e fun x => if x.result.isNone then { x with result := some r, doneAt := stamp s (frontEndIsland x.ring) } else x

/-- Status 0x00 with the two result words. -/
def finishDone (s : State) (e : Nat) (r16 r24 : Nat) : State :=
  finish s e { status := 0x00, r16 := BitVec.ofNat 64 r16, r24 := BitVec.ofNat 64 r24 }

/-- Status of own work: a status code of Table 4-5 or 9-9, below 255; or `lack l n`, lines `l` on whose answers it waits for. -/
abbrev Stat := Nat

def lack (line n : Nat) : Stat := (line * 2 ^ 24 + min n 16777215) * 256 + 255

/-- Whether a status stands for answers that are not there yet. -/
def isLack (st : Stat) : Bool := decide (255 ≤ st)

/-- The lines that a status says are waited for. -/
def lackLines (st : Stat) : List Nat := (List.range (st / 256 % 2 ^ 24)).map fun i => st / 2 ^ 32 + i

/-- Any other final status; the progress reached stands (R210). Work that waits for answers has no result yet. -/
def finishStatus (s : State) (e : Nat) (status : Stat) (r16 r24 : Nat) : State :=
  if isLack status then { s with own := { s.own with need := lackLines status } }
  else
    let p := match ledgerEntry s e with
      | some en => en.progress
      | none => 0
    finish s e { status := BitVec.ofNat 8 status, progress := if status = 0x01 then 10000 else p
                 r16 := BitVec.ofNat 64 r16, r24 := BitVec.ofNat 64 r24 }

/-- Done with the worst status of what the work read and wrote. -/
def finishBy (s : State) (e : Nat) (status : Stat) (r16 r24 : Nat) : State :=
  if status = 0x00 then finishDone s e r16 r24 else finishStatus s e status r16 r24

/-- A refusal by an opcode's own rule (Table 9-10); it is counted. -/
def finishRefused (s : State) (e : Nat) (reason : Nat) : State :=
  let s := { s with innk := { s.innk with refused := s.innk.refused + 1 } }
  let s := match ledgerEntry s e with
    | some en => updRoom s (entryRoom en) fun x => { x with refused := x.refused + 1 }
    | none => s
  finish s e { status := 0x02, byte5 := BitVec.ofNat 8 reason, progress := 0 }

/-- The switch is the map holder of a room, or may become it (R29). -/
def isMapHolder (s : State) (r : RoomId) : Bool :=
  match roomOf s r with
  | some x => x.holder == selfId s
  | none => false

/-! ### The mirror (R345 to R349) -/

/-- Whether the twin can be reached: a path toward it is up. -/
def twinReachable (s : State) : Bool :=
  twinPresent s && (match pathSetOf s 0 0 (.home (twinId s)) with
    | some p => !(livePorts s p).isEmpty
    | none => false)

/-- Whether the fallback ledger extent can be reached: its tray is attached and not lost. -/
def ledgerExtReachable (s : State) : Bool :=
  ledgerExtPresent s && (match trayOf s (ledgerExtTray s) with
    | some t => t.present && !t.lost
    | none => false)

/-- The first mirror target that is available: 1 the twin, 2 the ledger extent, 0 none; after a claim the twin is not
one (R345, R355). -/
def mirrorTarget (s : State) : Nat :=
  if twinReachable s && s.twin.claimed.isNone then 1 else if ledgerExtReachable s then 2 else 0

/-- The state byte of Table 15-2. -/
def entryState (en : Entry) : Nat :=
  match en.st with
  | .mirroring => 1
  | .accepted => 1
  | .running => 2
  | .resultHeld => 3

/-- The first 124 B of a ledger entry (Table 15-2) as one number. -/
def entryBody (en : Entry) : Nat :=
  let f : Final := en.result.getD { status := 0, progress := 0 }
  let held := en.st == .resultHeld
  en.desc.toNat + (en.ring.toNat + (if en.mgmt then 2 ^ 15 else 0)) * 2 ^ 512 + entryState en * 2 ^ 528
    + ((if en.replayed then 1 else 0) + (if en.rerunStarted then 2 else 0)) * 2 ^ 536 + en.epoch.toNat * 2 ^ 544
    + en.fn % 256 * 2 ^ 560 + en.tA % 2 ^ 64 * 2 ^ 576 + en.promise % 2 ^ 64 * 2 ^ 640 + en.checkpoint.toNat * 2 ^ 704
    + en.progress % 2 ^ 16 * 2 ^ 768
    + (if held then f.status.toNat * 2 ^ 784 + f.byte5.toNat * 2 ^ 792 + f.r16.toNat * 2 ^ 832 + f.r24.toNat * 2 ^ 896 else 0)
    + en.serial.toNat * 2 ^ 960

/-- The 128 B of a ledger entry. -/
def entryImage (en : Entry) : BitVec 1024 :=
  BitVec.ofNat 1024 (entryBody en + (crc32c (leBytes 124 (entryBody en))).toNat * 2 ^ 992)

/-- The 64 B ring record of Table 15-4. -/
def ringImage (r : Ring) : BitVec 512 :=
  BitVec.ofNat 512 (r.id.toNat + ((if r.enabled then 1 else 0) + (if r.fabric then 2 else 0)) * 2 ^ 16
    + r.room.toNat * 2 ^ 24 + r.d * 2 ^ 32 + r.c * 2 ^ 40 + r.fn % 256 * 2 ^ 48 + r.dbase.toNat * 2 ^ 64
    + r.cbase.toNat * 2 ^ 128 + r.h.toNat * 2 ^ 192 + r.nw.toNat * 2 ^ 224 + r.head.toNat * 2 ^ 256
    + r.dbObj % 2 ^ 32 * 2 ^ 288 + (r.notifyObj.getD (2 ^ 31)) % 2 ^ 32 * 2 ^ 320 + r.vector % 2 ^ 16 * 2 ^ 352
    + r.pint % 2 ^ 32 * 2 ^ 384 + r.tail.toNat * 2 ^ 416)

/-- The 64 B mirror header of Table 15-3. -/
def headerImage (s : State) : BitVec 1024 :=
  BitVec.ofNat 1024 (0x0009 + (selfId s).toNat * 2 ^ 16 + (twinId s).toNat * 2 ^ 32 + s.ledger.headerState * 2 ^ 48
    + s.twin.ownBeat % 2 ^ 64 * 2 ^ 64 + s.ledger.mirrorSerial.toNat * 2 ^ 128)

/-- Records that the map journal holds: 960 MiB of 64 B (Table 15-3). -/
def journalCapacity : Nat := 960 * 16384

/-- Place of a write in the mirror region (Table 15-3, R373). -/
def mirrorOffset (area index : Nat) : Nat :=
  match area with
  | 0 => 0
  | 1 => 0x10000 + 64 * index
  | 2 => 0x100000 + 128 * index
  | 3 => 0x4000000 + 64 * (index % journalCapacity)
  | _ => 0x80000 + 128 * index

/-- The STs that carry bytes `l`, from byte `from_` of a write on, to the twin: of the switch's own agent, engine 516, in ordered class
0b01 and guaranteed work class (R346, R465). -/
def mirrorSend (s : State) (area index from_ : Nat) (l : List Byte) : State :=
  let g := mirrorBase s + BitVec.ofNat 64 (mirrorOffset area index + from_)
  (piecesOf 64 (l.length / 64 + 1) l).zipIdx.foldl
    (fun s x => askOwn s (.mirror area index) 516 (.st x.1) (g + BitVec.ofNat 64 (64 * x.2)) x.1.length 0 0b01 0) s

/-- A write of the mirror at the target in use. The ledger extent is written in place, without its extent map (R423). -/
def mirrorWrite (s : State) (area index : Nat) (v : BitVec 1024) (from_ n : Nat) : State :=
  let s := say s (.mirror area index v)
  if s.ledger.target = 1 then mirrorSend s area index from_ (((leBytes 128 v.toNat).drop from_).take n) else s

/-- Writes the header. -/
def mirrorHeader (s : State) : State := mirrorWrite s 0 0 (headerImage s) 0 64

/-- Writes the record of a ring, and an entry: both its lines, or line B alone (R344, R346). -/
def ringWrite (s : State) (r : Ring) : State := mirrorWrite s 1 r.id.toNat ((ringImage r).setWidth 1024) 0 64
def entryWrite (s : State) (en : Entry) (whole : Bool) : State :=
  mirrorWrite s 2 en.n (entryImage en) (if whole then 0 else 64) 128

/-- Line B of a free entry (R346). -/
def mirrorRelease (s : State) (e : Nat) : State := mirrorWrite s 2 e 0 64 64

/-- What was asked of the mirror target is asked no more: the target changes. -/
def dropMirror (s : State) : State :=
  let mine := fun (w : OwnFor) => match w with
    | .mirror _ _ => true
    | _ => false
  { s with own := { s.own with
    asks := s.own.asks.filter (fun q => !mine q.who)
    sent := mapIf (fun (q : OwnReq) => mine q.who) (fun q => { q with who := .notify }) s.own.sent
    got := s.own.got.filter (fun y => !mine y.who) } }

/-- Writes header, ring records and entries to a new target (R346). -/
def mirrorAll (s : State) : State :=
  let s := mirrorHeader (dropMirror s)
  let s := s.ledger.rings.foldl ringWrite s
  (s.ledger.entries.filter (fun x => !isRefused x)).foldl (fun s en => entryWrite s en true) s

/-- Moves to the first target of R345 that is available; a fall back to the ledger extent enters Degraded. -/
def refreshTarget (s : State) : State :=
  let t := mirrorTarget s
  if t = s.ledger.target then s
  else
    let old := s.ledger.target
    let s := { s with ledger := { s.ledger with target := t } }
    let s := if t ≠ 0 then mirrorAll s else dropMirror s
    if old = 1 ∧ t = 2 then degrade s else s

/-- One mirror write of an entry at the target in use, with the next serial (R346): line B, and before it line A where `whole` says so
or the entry is not accepted yet, whose room epoch is then the current one (Table 15-2). -/
def mirrorEntryAt (s : State) (e : Nat) (whole : Bool := false) : State :=
  let n := s.ledger.mirrorSerial + 1
  let s := updLedger { s with ledger := { s.ledger with mirrorSerial := n } } e fun x => { x with
    serial := n, writtenAt := s.time.now, epoch := if x.st = .mirroring then currentEpoch s (entryRoom x) else x.epoch }
  match ledgerEntry s e with
  | some en => if s.ledger.target = 0 then s else entryWrite s en (whole || en.st == .mirroring)
  | none => s

/-- One mirror write of an entry at the first target that is available. -/
def mirrorEntry (s : State) (e : Nat) (whole : Bool := false) : State := mirrorEntryAt (refreshTarget s) e whole

/-- Mirrors the record of a ring (R347). -/
def mirrorRing (s : State) (r : BitVec 12) : State :=
  let s := refreshTarget s
  match ringOf s r with
  | some x =>
    if s.ledger.target = 0 then s
    else
      let s := updRing s r fun x => { x with nwMirrored := x.nw, tailMirrored := x.tail }
      ringWrite s x
  | none => s

/-! ### The partner's mirror region here -/

/-- GFA of the header of the partner's mirror region: the package extent of room 0x00 at this home whose first bytes name the
format 0x0009 and the partner as owner (R345, Table 15-3). -/
def partnerHeader (s : State) : Option Nat :=
  (s.maps.exts.find? (fun x => x.room == 0 && x.survival == 2 && x.st == .bound &&
    leVal (readBytes s.pool.mem (x.key * 2 ^ 21) 4) == 0x0009 + (twinId s).toNat * 2 ^ 16)).map (fun x => x.key * 2 ^ 21)

/-- The heartbeat field of the partner's header. -/
def partnerBeat (s : State) : Nat :=
  match partnerHeader s with
  | some g => leVal (readBytes s.pool.mem (g + 8) 8)
  | none => 0

/-- Looks at the partner's heartbeat: a new value is one heartbeat seen (`LEDG.PEER`). -/
def seeBeat (s : State) : State :=
  if twinPresent s && partnerBeat s != s.twin.peerBeat then
    { s with twin := { s.twin with peerBeat := partnerBeat s, peerSeenAt := s.time.now, beats := s.twin.beats + 1 } }
  else s

/-! ### Results that a replay reports (Table 15-5) -/

/-- What an earlier run of a descriptor applied and the journal records. -/
def appliedOf (s : State) (en : Entry) : Option (Word × Word) :=
  (s.ledger.applied.find? (fun x => x.1 == en.ring && x.2.1 == descSeq en.desc)).map (fun x => x.2.2)

/-- Records that a descriptor's change is made, with its result. -/
def recordApplied (s : State) (en : Entry) (a b : Nat) : State :=
  { s with ledger := { s.ledger with
    applied := s.ledger.applied ++ [(en.ring, descSeq en.desc, BitVec.ofNat 64 a, BitVec.ofNat 64 b)] } }

/-- Journals a change of a map (R349): kind and up to 60 B; the record's layout is the model's own. -/
def journal (s : State) (kind : Nat) (v : Nat) : State :=
  let r : BitVec 512 := BitVec.ofNat 512 (kind + v * 2 ^ 32)
  let s := { s with ledger := { s.ledger with
    journal := s.ledger.journal ++ [r], journalUsed := s.ledger.journalUsed + 64 } }
  if s.ledger.target = 0 then s else mirrorWrite s 3 (s.ledger.journal.length - 1) (r.setWidth 1024) 0 64

/-- Whether the journal has space: when it is full, map changes wait (R349). -/
def journalFull (s : State) : Bool := decide (s.ledger.journalUsed + 64 > journalCapacity * 64)

/-! ### Completion records (R208 to R212, R400) -/

/-- The phase bit of record `n` (R209). -/
def phaseBit (n : BitVec 32) (c : Nat) : Nat := 1 - n.toNat / 2 ^ c % 2

/-- A completion record (Table 9-8). -/
def recordBits (seq : BitVec 32) (status b5 progress time : Nat) (r16 r24 : Word) : BitVec 256 :=
  BitVec.ofNat 256 (seq.toNat + status * 2 ^ 32 + b5 * 2 ^ 40 + progress * 2 ^ 48 + time * 2 ^ 64
    + r16.toNat * 2 ^ 128 + r24.toNat * 2 ^ 192)

/-- Writes the next completion record of a ring; records of a function wait while the management link is down, and those of a
fabric ring are STs in ordered class 0b01 by the engine of its front end (R194, R465). -/
def writeRecord (s : State) (r : Ring) (seq : BitVec 32) (status b5 progress : Nat) (time : Nat) (r16 r24 : Word) : State :=
  let v := recordBits seq status (b5 + 128 * phaseBit r.nw r.c) progress time r16 r24
  let addr := r.cbase + BitVec.ofNat 64 (32 * (r.nw.toNat % 2 ^ r.c))
  let s := updRing s r.id fun x => { x with nw := x.nw + 1 }
  let s := if !r.fabric && !s.mgmt.link then
      { s with mgmt := { s.mgmt with waitRecs := s.mgmt.waitRecs ++ [(r.fn, addr, v)] } }
    else say s (.record r.id (if r.fabric then none else some r.fn) addr v)
  let s := if r.fabric then
      askOwn s (.record r.id) (514 + r.id.toNat % 2) (.st (leBytes 32 v.toNat)) addr 32 r.room 0b01 0
    else s
  mirrorRing s r.id

/-- Descriptors of a ring fetched whose final record is not yet written: r of R204. -/
def openFinals (s : State) (r : BitVec 12) : Nat :=
  (s.ledger.entries.filter (fun x => x.ring == r && !x.adopted && !x.recorded)).length

/-- A promise passed is counted and recorded (R329). -/
def countMiss (s : State) (en : Entry) : State :=
  let now := stamp s (frontEndIsland en.ring)
  if en.missed || decide (now ≤ en.promise) || descClass en.desc == 2 then s
  else
    let s := updLedger s en.n fun x => { x with missed := true }
    let s := updRoom s (entryRoom en) fun r => { r with misses := r.misses + 1 }
    addFault s { mkFault 0x05 0 (en.promise % 2 ^ 64 + (now - en.promise) * 2 ^ 64) with
      room := entryRoom en, unitIndex := en.ring.toNat, tag := descSeq en.desc }

/-! ### Own accesses to memory (R231, R465): what a descriptor's work reads and writes -/

/-- What a read brings: the bytes, and the status of its worst line (0x04, then 0x03, then 0x05, then 0x01). -/
structure Got where
  bytes : List Byte
  status : Stat
  deriving DecidableEq, Repr

/-- The worse of two statuses, by the precedence of R284; a revocation (R44) ends the work, and answers that are not there yet come
before all. -/
def worse (a b : Stat) : Stat :=
  let rank := fun (x : Stat) =>
    if isLack x then 6 else if x = 0x06 then 5 else if x = 0x04 then 4 else if x = 0x03 then 3 else if x = 0x05 then 2
    else if x = 0x01 then 1 else 0
  if rank a ≥ rank b then a else b

/-- Elastic work that reaches a Draining extent ends there (R44). -/
def meetsDrain (s : State) (e : Nat) (g : Word) : Bool :=
  (match extentOf s (extKey g) with
    | some x => x.st == .draining
    | none => false) &&
  (match ledgerEntry s e with
    | some en => descClass en.desc == 1
    | none => false)

/-! ### Work in chunks (R36) -/

/-- Where a descriptor's work starts: at its checkpoint when it is replayed (Table 15-5). -/
def startAt (en : Entry) : Nat := if en.replayed then en.checkpoint.toNat else 0

/-- The item at which the next chunk begins, and counter `k` of the work so far: a tally holds the worst status, that item, and
the opcode's counters. -/
def nextItem (en : Entry) : Nat :=
  match en.tally with
  | _ :: i :: _ => i
  | _ => startAt en
def tallyAt (en : Entry) (k : Nat) : Nat := en.tally.getD (k + 2) 0
def tallyStatus (en : Entry) : Stat := en.tally.headD 0

/-- A chunk of work is done: its next item, position, progress in basis points and counters; the checkpoint is mirrored in
state 2 when the entry was not for 100 us (R346). -/
def endChunk (s : State) (e : Nat) (status : Stat) (item ck pos bp : Nat) (tally : List Nat) : State :=
  let s := updLedger s e fun x => { x with
    tally := status :: item :: tally, checkpoint := BitVec.ofNat 64 ck, position := BitVec.ofNat 64 pos
    progress := max x.progress (min 10000 bp) }
  match ledgerEntry s e with
  | some en => if s.ledger.target != 0 && decide (en.writtenAt + 100000 ≤ s.time.now) then mirrorEntryAt s e else s
  | none => s

/-- After a chunk: what it lacks is asked for; a revocation ends the work at its position; the last chunk gives the result. -/
def closeChunk (s : State) (e : Nat) (status : Stat) (item ck pos bp : Nat) (tally : List Nat) (last : Bool) (r16 r24 : Nat) : State :=
  if isLack status then finishStatus s e status 0 0
  else
    let s := endChunk s e status item ck pos bp tally
    if status = 0x06 then finishStatus s e 0x06 pos 0
    else if last then finishBy s e status r16 r24 else s

/-- The engine that issues the requests of a descriptor's work (Table 4-11): its cluster, its array, its automaton group, or 519. -/
def workEngine (s : State) (e : Nat) : Nat :=
  match ledgerEntry s e with
  | none => 519
  | some en =>
    let pick := fun (f : Resource → Option Nat) => ((s.innk.bookings.filter (fun b => b.e == e)).findSome? (fun b => f b.res)).getD 519
    let op := descOp en.desc
    if 0x60 ≤ op ∧ op ≤ 0x63 then en.claims.headD 519
    else if op = 0x49 then pick fun r => match r with
      | .cluster c => some c
      | _ => none
    else if op = 0x41 then (match s.engine.caravans.find? (fun v => v.run.any (fun r => r.e == e)) with
      | some v => ((v.stages.head?.bind fun g => g.clusters.head?).getD 519)
      | none => 519)
    else if op = 0x71 then 288 + descField en.desc 28 1
    else if op = 0x72 then 288 + descField en.desc 36 1
    else if op = 0x75 then (match s.filt.automata.find? (fun a => a.id == descField en.desc 28 1) with
      | some a => 256 + a.engines.headD 0 / 8
      | none => 519)
    else 519

/-- The engine of a descriptor's writes: the sink of a caravan run has that of the last stage's first cluster. -/
def writeEngine (s : State) (e : Nat) : Nat :=
  match s.engine.caravans.find? (fun v => v.run.any (fun r => r.e == e)) with
  | some v => (v.stages.getLast?.bind fun g => g.clusters.head?).getD 519
  | none => workEngine s e

/-- The work class of a descriptor's requests. -/
def workCls (en : Entry) : BitVec 2 := BitVec.ofNat 2 (descClass en.desc)

/-- The snapshot handle through which a descriptor's work reads, where it does: AUTO_SCAN's (Table 13-9). -/
def workHandle (en : Entry) : BitVec 16 := BitVec.ofNat 16 (descField en.desc 34 2)

/-- An own read of `n` bytes that lie in one line, for the work of entry `e`: from the answer for the whole line, which is known
by `key`. -/
def ownReadKey (s : State) (e key : Nat) (g : Word) (n : Nat) : Got :=
  if meetsDrain s e g then { bytes := List.replicate n 0xFF, status := 0x06 }
  else match gotLine s (.work e) key with
    | none => { bytes := List.replicate n 0xFF, status := lack key 1 }
    | some y =>
      if y.status = 0x00 then { bytes := (y.data.drop (bitsAt g 0 6)).take n, status := 0x00 }
      else { bytes := List.replicate n 0xFF, status := y.status.toNat }

/-- An own read by LD, and one by LD_SNAP (R143). -/
def ownReadLine (s : State) (e : Nat) (g : Word) (n : Nat) : Got := ownReadKey s e (lineKey g) g n
def ownSnapLine (s : State) (e : Nat) (g : Word) (n : Nat) : Got := ownReadKey s e (snapKey (lineKey g)) g n

/-- An own read of any length, line by line; `k` bounds the lines. -/
def ownReadLoop : Nat → State → Nat → Word → Nat → Got
  | 0, _, _, _, _ => { bytes := [], status := 0x00 }
  | k + 1, s, e, g, n =>
    if n = 0 then { bytes := [], status := 0x00 }
    else
      let m := min n (64 - bitsAt g 0 6)
      let a := ownReadLine s e g m
      let b := ownReadLoop k s e (g + BitVec.ofNat 64 m) (n - m)
      { bytes := a.bytes ++ b.bytes, status := worse a.status b.status }

/-- An own read of any length: where answers are not there yet, it asks for all its lines from the first such one on. -/
def ownRead (s : State) (e : Nat) (g : Word) (n : Nat) : Got :=
  let r := ownReadLoop (n / 64 + 2) s e g n
  if isLack r.status then
    { r with status := lack (r.status / 2 ^ 32) (lineKey (g + BitVec.ofNat 64 (n - 1)) + 1 - r.status / 2 ^ 32) }
  else r

/-- The answer to the write that a unit asked for last, if it has come. -/
def gotWrite (s : State) (who : OwnFor) (g : Word) : Option OwnGot :=
  s.own.got.find? (fun y => !y.isRead && y.who == who && y.gfa == g)

/-- An own write of bytes that lie in one line: an ST of the switch's own agent. An answer that has come at once gives the status;
any later one is taken by the final record (R81, R130). -/
def ownWriteLine (s : State) (e : Nat) (room : RoomId) (g : Word) (data : List Byte) : State × Stat :=
  if meetsDrain s e g then (s, 0x06)
  else
    let cls := match ledgerEntry s e with
      | some en => workCls en
      | none => 0
    let s := askOwn s (.work e) (writeEngine s e) (.st data) g data.length room 0 cls
    match gotWrite s (.work e) g with
    | some y => ({ s with own := { s.own with got := s.own.got.erase y } }, y.status.toNat)
    | none => (s, 0x00)

/-- An own write of any length. -/
def ownWriteLoop : Nat → State → Nat → RoomId → Word → List Byte → State × Stat
  | 0, s, _, _, _, _ => (s, 0x00)
  | k + 1, s, e, room, g, data =>
    if data.isEmpty then (s, 0x00)
    else
      let m := min data.length (64 - bitsAt g 0 6)
      let (s, a) := ownWriteLine s e room g (data.take m)
      let (s, b) := ownWriteLoop k s e room (g + BitVec.ofNat 64 m) (data.drop m)
      (s, worse a b)

def ownWrite (s : State) (e : Nat) (room : RoomId) (g : Word) (data : List Byte) : State × Stat :=
  ownWriteLoop (data.length / 64 + 2) s e room g data

/-- An ATTEND and a GATHER read each line once: what has been read stands until the final record (R285, R286, R289). -/
def keepsLines (op : Nat) : Bool := op == 0x60 || op == 0x62

/-- Work that needs answers is done again from its start once they have come: what it did until then is undone, and only the
requests it asks for are issued. `ok` says whether it may be done, `go` begins it. -/
def tryWork : Nat → State → Nat → (State → Entry → Bool) → (State → Nat → State) → (State → Entry → State) → State
  | 0, s, _, _, _, _ => s
  | k + 1, s, e, ok, go, f =>
    match ledgerEntry s e with
    | none => s
    | some en =>
      if !ok s en then s
      else
        let t := f (go s e) en
        if t.own.need.isEmpty then (if keepsLines (descOp en.desc) then t else dropGot t (.work e))
        else
          let u := askLines (go s e) (.work e) (workEngine s e) (workHandle en) (entryRoom en) (workCls en) t.own.need
          if t.own.need.all (fun l => (gotLine u (.work e) l).isSome) then tryWork k u e ok go f else u

/-- Runs `f` on a descriptor's entry if it is of this opcode and may run; otherwise nothing happens. -/
def withEntry (s : State) (e op : Nat) (f : State → Entry → State) : State :=
  tryWork 1048576 s e (fun s en => runs s en op) startEntry f

/-- A descriptor whose test needs what it names in memory (R4, R225, R308). -/
def testReads (op : Nat) : Bool := op == 0x40 || op == 0x73

/-- A descriptor of this opcode whose test is still to read what it names. -/
def untested (s : State) (en : Entry) (op : Nat) : Bool :=
  descOp en.desc == op && en.st == .mirroring && en.result.isNone && !en.tested && isRunning s

/-- Reads lines for work that goes on by itself: it asks for them, and gives what has come. -/
def readNow (s : State) (e engine : Nat) (room : RoomId) (g : Word) (n : Nat) : State × Got :=
  let r := ownRead s e g n
  if isLack r.status then
    let cls := match ledgerEntry s e with
      | some en => workCls en
      | none => 0
    let s := askLines s (.work e) engine 0 room cls (lackLines r.status)
    (s, ownRead s e g n)
  else (s, r)

/-- The result of a descriptor takes the statuses of writes answered after it was given, and the time of the last (R212); `loss` is what
failed ones take from the count in bytes 16 to 23. A FAULT_READ gives 0x01 for 0x05 (R366). -/
def absorbWrites (s : State) (e : Nat) (loss : Entry → List OwnGot → Nat) : State :=
  let late := s.own.got.filter (fun y => !y.isRead && y.who == .work e)
  let read : Bool := match ledgerEntry s e with
    | some en => descOp en.desc == 0x91
    | none => false
  let st := late.foldl (fun a y => worse a (if read && y.status == 0x05 then 0x01 else y.status.toNat)) 0x00
  let at_ := late.foldl (fun a y => max a y.at_) 0
  let s := updLedger s e fun x => { x with
    doneAt := max x.doneAt at_
    result := x.result.map fun r =>
      let r : Final := { r with r16 := r.r16 - BitVec.ofNat 64 (min r.r16.toNat (loss x late)) }
      if worse r.status.toNat st = r.status.toNat then r else { r with status := BitVec.ofNat 8 st } }
  dropAsks s (.work e)

/-! ### Revocation (R42 to R45) -/

/-- Lines of an extent that agents of its sharing domain hold cached (R42): those that name one, and those in SB. -/
def cachedLines (s : State) (key : Nat) : Nat :=
  let agents := match extentOf s key with
    | some x => domainAgents s x.room x.domain
    | none => []
  (s.dir.entries.filter (fun e => e.line / 32768 == key
    && (e.st == .broadcast || e.ptrs.any (fun a => agents.contains a)))).length

/-- What remains of an extent's drain count. -/
def drainLeft (s : State) (x : Extent) : Nat := x.reqs.length + x.descs.length + cachedLines s x.key

/-- The moves of an extent's tiles that must settle before it drains (R167). -/
def moving (s : State) (key : Nat) : Bool :=
  (movers s).any fun m => m.key / 32 == key && (m.mig == .closing || m.mig == .committing || m.mig == .disputed)

/-- A drained extent returns to Free: its tiles, data, marks and versions are released (R44, R45). -/
def freeExtent (s : State) (x : Extent) : State :=
  let s := { s with
    maps := { s.maps with
      exts := s.maps.exts.filter (fun y => y.key != x.key)
      tiles := s.maps.tiles.filter (fun t => t.key / 32 != x.key)
      recs := s.maps.recs.filter (fun r => r.tile / 32 != x.key)
      retained := s.maps.retained.filter (fun r => r.tile / 32 != x.key)
      versions := s.maps.versions.map (fun v => { v with exts := v.exts.filter (· != x.key) })
      handles := s.maps.handles.map (fun h => { h with exts := h.exts.filter (· != x.key) }) }
    pool := { s.pool with
      mem := clearRange s.pool.mem (x.key * 2 ^ 21) (2 ^ 21)
      marks := s.pool.marks.filter (fun m => m.1 / 32768 != x.key)
      upsets := s.pool.upsets.filter (fun y => y.unit.tile / 32 != x.key) } }
  reclaimVersions (journal s 4 x.key)

/-- The extents an EXTENT_REVOKE names (Table 2-8). -/
def revokeKeys (d : BitVec 512) : List Nat :=
  (List.range (descField d 24 4)).map fun i => descField d 16 8 / 2 ^ 21 + i

/-- Ends every revocation whose extents have drained (R45). -/
def settleRevokes (s : State) : State :=
  let done := s.maps.exts.filter fun x => x.st == .draining && drainLeft s x == 0 && !moving s x.key
  let s := done.foldl freeExtent s
  let ready := s.ledger.entries.filter fun en =>
    descOp en.desc == 0x22 && en.pendingWork == 1 && en.result.isNone &&
      (revokeKeys en.desc).all fun k => match extentOf s k with
        | some x => x.st != .draining
        | none => true
  ready.foldl (fun s en => finishDone s en.n en.doneCount en.skipCount) s

/-- The pin bits of a MIGRATE that completes (Table 7-8). -/
def applyPins (s : State) (en : Entry) : State :=
  let d := en.desc
  let f := descField d 30 1
  if descOp d ≠ 0x2B ∨ f % 4 = 0 then s
  else
    let first := tileKey (descWord d 16)
    let hit := fun (x : Extent) => decide (first / 32 ≤ x.key) && decide (x.key ≤ (first + descField d 24 4 - 1) / 32)
      && (entryRoom en == 0 || x.room == entryRoom en)
    { s with maps := { s.maps with exts := mapIf hit (fun x => { x with pin := f % 2 == 1 }) s.maps.exts } }

/-- Ends every MIGRATE whose tiles, of which `pendingWork` is one more than the number, have all settled or been skipped (R168). -/
def settleMigrates (s : State) : State :=
  let ready := s.ledger.entries.filter fun en =>
    descOp en.desc == 0x2B && en.pendingWork != 0 && en.result.isNone && en.doneCount + en.skipCount + 1 == en.pendingWork
  ready.foldl (fun s en => applyPins (finishDone s en.n en.doneCount en.skipCount) en) s

/-- Work whose tile lies in a Draining extent ends there (R44): its other moves that no porter has begun are given up. -/
def endByDrain (s : State) (e key : Nat) : State :=
  match ledgerEntry s e with
  | none => s
  | some en =>
    if en.result.isSome then s
    else
      let s := updLedger s e fun x => { x with position := BitVec.ofNat 64 (key * 65536) }
      let s := finishStatus s e 0x06 (key * 65536) 0
      let s := ((movers s).filter (fun m => m.work == some e && m.mig == .booked)).foldl (fun s m => putMover s (idle m)) s
      applyPins { s with maps := { s.maps with streams := s.maps.streams.filter (fun v => v.e != e) } } en

end Sys2Proof.Machine
end

