-- ==== Sys2Proof/Machine/Desc.lean ====
section
/-!
DEFINITION. Machine/Desc.lean: the clamp rules of the descriptor header (Tables 9-4, 9-5) and of every opcode's fields,
one row of a table for each field, and the count of clamped fields (R213).
-/

namespace Sys2Proof.Machine

/-! ### Opcodes and classes (Table 9-6) -/

/-- Opcodes that allow only guaranteed and best-effort work. -/
def opsGB : List Nat :=
  [0x00, 0x01, 0x21, 0x23, 0x27, 0x28, 0x29, 0x42, 0x4A, 0x74, 0x80, 0x82, 0x91, 0xA0]

/-- Opcodes that are always elastic. -/
def opsE : List Nat :=
  [0x20, 0x22, 0x24, 0x25, 0x26, 0x2A, 0x2B, 0x2C, 0x2D, 0x40, 0x48, 0x70, 0x71, 0x73, 0x81, 0x83, 0x90, 0x92]

/-- Opcodes that allow every class. -/
def opsGEB : List Nat := [0x41, 0x60, 0x61, 0x62, 0x63, 0x72, 0x75]

/-- COLL_RUN allows guaranteed and elastic (R263). -/
def opsGE : List Nat := [0x49]

def knownOp (op : Nat) : Bool := opsGB.contains op || opsE.contains op || opsGEB.contains op || opsGE.contains op

/-- The work class after its clamp (R200). -/
def clampClass (op c : Nat) : Nat :=
  let c := if c > 2 then 2 else c
  if opsE.contains op then 1
  else if opsGB.contains op then (if c = 1 then 0 else c)
  else if opsGE.contains op then (if c = 2 then 1 else c)
  else c

/-! ### Fields -/

/-- A field of a descriptor: where it lies, and its value after the clamp, given the descriptor as clamped so far. -/
structure Field where
  byte : Nat
  len : Nat
  fn : State → BitVec 512 → Nat → Nat

/-- A reserved field: cleared. -/
def cleared (byte len : Nat) : Field := { byte := byte, len := len, fn := fun _ _ _ => 0 }

/-- Low `k` bits cleared. -/
def aligned (byte len k : Nat) : Field := { byte := byte, len := len, fn := fun _ _ v => v - v % 2 ^ k }

/-- Only the low `k` bits stay. -/
def lowBits (byte len k : Nat) : Field := { byte := byte, len := len, fn := fun _ _ v => v % 2 ^ k }

/-- Held to a range. -/
def ranged (byte len lo hi : Nat) : Field := { byte := byte, len := len, fn := fun _ _ v => clampNat lo hi v }

/-- Values above `hi` taken as `v0`. -/
def above (byte len hi v0 : Nat) : Field := { byte := byte, len := len, fn := fun _ _ v => if v > hi then v0 else v }

/-- A target room: 0x00 taken as 0x01. -/
def roomField (byte : Nat) : Field := { byte := byte, len := 1, fn := fun _ _ v => if v = 0 then 1 else v }

/-- A rate floor; read only in the elastic class. -/
def floorField (byte len lo hi : Nat) : Field :=
  { byte := byte, len := len, fn := fun _ d v => if descClass d = 1 then clampNat lo hi v else v }

/-- A completion or go sync object: bit 31 means none; bits [30:18] cleared. -/
def objField (byte : Nat) : Field :=
  { byte := byte, len := 4, fn := fun _ _ v => v / 2 ^ 31 * 2 ^ 31 + v % 2 ^ 18 }

/-- A count of units of 2^k bytes from the address at `at_`, cut where the home's extents end (index 2^27 - 1). -/
def countField (byte at_ k hi : Nat) : Field :=
  { byte := byte, len := 4, fn := fun _ d v =>
      min (clampNat 1 hi v) ((2 ^ 48 - descField d at_ 8 % 2 ^ 48) / 2 ^ k) }

/-! ### Layout descriptors (Tables 8-1, 8-2) -/

/-- Bytes of a row. -/
def rowBytes (f cols : Nat) : Nat := (cols * elementBits f + 7) / 8

/-- The fields of a layout descriptor that starts at byte `b`. -/
def layoutFields (b : Nat) : List Field :=
  [above b 1 9 0, above (b + 1) 1 3 0,
   { byte := b + 2, len := 1, fn := fun _ d v => if v > 1 ∨ (v = 1 ∧ descField d b 1 ≥ 7) then 0 else v },
   cleared (b + 3) 1,
   { byte := b + 4, len := 2, fn := fun _ d v =>
       let pitch := max (descField d (b + 8) 2) (min 65535 (rowBytes (descField d b 1) (max 1 (descField d (b + 6) 2))))
       max 1 (min v (elementRegion (descField d b 1) / max 1 pitch)) },
   ranged (b + 6) 2 1 65535,
   { byte := b + 8, len := 2, fn := fun _ d v => max v (min 65535 (rowBytes (descField d b 1) (descField d (b + 6) 2))) },
   cleared (b + 10) 6]

/-! ### Fields that depend on the state -/

/-- RING_SET: the function is read only with location 0 (Table 9-3). -/
def ringSetFields (d : BitVec 512) : List Field :=
  let head := [lowBits 16 2 12, above 18 1 2 1]
  let act := if descField d 18 1 > 2 then 1 else descField d 18 1
  if act ≠ 0 then head
  else head ++
    [above 19 1 1 1,
     { byte := 20, len := 1, fn := fun _ d v => if descField d 19 1 = 0 ∧ v > 63 then 0 else v },
     ranged 21 1 6 16,
     { byte := 22, len := 1, fn := fun _ d v => clampNat (descField d 21 1) 16 v },
     cleared 23 1, aligned 24 8 12, aligned 32 8 12, ranged 44 4 10 1000000,
     { byte := 48, len := 2, fn := fun _ d v => if descField d 19 1 = 0 then clampNat 0 2047 v else v },
     cleared 50 2,
     { byte := 52, len := 4, fn := fun _ d v => if descField d 19 1 = 1 then v % 2 ^ 18 else v },
     { byte := 56, len := 4, fn := fun _ d v => if descField d 19 1 = 1 then v / 2 ^ 31 * 2 ^ 31 + v % 2 ^ 18 else v },
     cleared 60 4]

/-- The placement class byte (Table 7-2). -/
def clampPlacement (s : State) (room : RoomId) (v : Nat) : Nat :=
  let surv := if v / 16 % 4 = 3 then 1 else v / 16 % 4
  let unified := match roomOf s room with
    | some r => r.unified
    | none => false
  let tier := v % 4
  let tier := if tier = 3 ∧ !unified then 1 else tier
  let tier := if surv = 2 then 0 else if surv = 1 ∧ tier = 0 then 1 else tier
  let tier := if v / 8 % 2 = 1 ∧ tier = 2 then 1 else tier
  surv * 16 + v / 8 % 2 * 8 + v / 4 % 2 * 4 + tier

/-- A unit of a room's slice in a tier. -/
def inSlice (s : State) (room : RoomId) (tier u : Nat) : Bool :=
  match sliceOf s room with
  | some y => if tier = 0 then decide (u < 16) && y.hbm.getLsbD u else decide (u < 64) && y.trays.getLsbD u
  | none => false

/-- Segments of an array that another room's table holds. -/
def segTaken (s : State) (room : RoomId) (array seg : Nat) : Bool :=
  s.filt.tables.any (fun t => t.room != room && t.array == array && decide (t.first ≤ seg) && decide (seg < t.first + t.count))

/-- The table of an array in a FILTER_BOOK (Table 13-1). -/
def clampTable (s : State) (room : RoomId) (array v : Nat) : Nat :=
  let first := v % 16
  let n := min (min 16 (v / 16 % 32)) (16 - first)
  let n := ((List.range n).find? (fun k => segTaken s room array (first + k))).getD n
  first + n * 16 + v / 512 % 2 * 512

/-- Engine groups that a room may book: not held by others, not retired. -/
def clampGroups (s : State) (room : RoomId) (v : Nat) : Nat :=
  ((List.range 32).filter (fun g => v / 2 ^ g % 2 == 1
    && !s.filt.groups.any (fun x => x.1 == g && x.2 != room) && !(List.range 8).all (fun k => isRetired s 0x08 (8 * g + k)))).foldl (fun n g => n + 2 ^ g) 0

/-- Units of each kind of Table 15-8: clusters, fabric lanes, bridge lanes, flex lanes, HBM channels, HBM controllers,
arrays, automata engines, porters, stewards, join modules. -/
def unitCount (code : Nat) : Nat :=
  match code with
  | 0x01 => 144
  | 0x02 => 448
  | 0x03 => 64
  | 0x04 => 64
  | 0x05 => 128
  | 0x06 => 16
  | 0x07 => 8
  | 0x08 => 256
  | 0x09 => 64
  | 0x0A => 16
  | 0x0B => 196
  | _ => 0

/-- HEALTH_CMD bytes 16 to 23 (Table 15-9). -/
def clampHealth (v : Nat) : Nat :=
  let act := if v % 256 > 2 then 0 else v % 256
  let code := if unitCount (v / 256 % 256) = 0 then 1 else v / 256 % 256
  act + code * 256 + min (v / 65536 % 65536) (unitCount code - 1) * 65536

/-- Fixed forecast (R330): the largest fixed power of the last 1 ms, times 1.03, in mW. -/
def fixedForecast (s : State) : Nat := (s.innk.samples.foldl max 0 * 103 + 99) / 100

/-- Power of the elastic floors booked now, in mW. -/
def floorPower (s : State) : Nat :=
  ((s.innk.bookings.filter (fun b => b.floor && (match b.res with
    | .energy _ => true
    | _ => false))).map (fun b => b.amount)).sum

/-- A power cap (Table 14-5). -/
def clampCap (s : State) (v : Nat) : Nat :=
  max (clampNat 500 1450 v) ((fixedForecast s + floorPower s + 999) / 1000)

/-- The open context that a descriptor names (R254). -/
def contextOf (s : State) (lead : SwitchId) (ctx : Nat) : Option Context :=
  s.coll.ctxs.find? (fun c => c.lead == lead && c.ctx.toNat == ctx)

/-- Types that XRND allows (Table 10-9). -/
def xrndTypes : List Nat := [0x0, 0x1, 0x2, 0x3, 0x4, 0x6, 0x7]

/-- COLL_RUN (Table 11-5). -/
def collRunFields : List Field :=
  [lowBits 16 2 10, above 18 1 3 0,
   { byte := 19, len := 1, fn := fun s d v =>
       if descField d 18 1 ≥ 2 ∨ xrndTypes.contains v then v
       else if 0x9 ≤ v ∧ v ≤ 0xB then
         (match contextOf s (selfId s) (descField d 16 2) with
           | some c => if c.coded then v else 0
           | none => 0)
       else 0 },
   { byte := 20, len := 2, fn := fun s d v =>
       match contextOf s (selfId s) (descField d 16 2) with
       | some c => if descField d 18 1 = 3 ∧ v ≥ c.total then 0 else v
       | none => v },
   cleared 22 2,
   { byte := 24, len := 8, fn := fun s d v =>
       let n := clampNat 1 (2 ^ 36) v
       match contextOf s (selfId s) (descField d 16 2) with
       | some c => if descField d 18 1 = 1 ∨ descField d 18 1 = 2 then max c.total (n - n % c.total) else n
       | none => n },
   aligned 32 8 6, floorField 40 4 100 4000000, objField 44, cleared 48 16]

/-! ### The table of fields -/

/-- The fields of an opcode, bytes 16 to 63, in order of first byte but where one field's range needs another's. -/
def fieldsOf (d : BitVec 512) : List Field :=
  let room := descRoom d
  match descOp d with
  | 0x01 => ringSetFields d
  | 0x20 => [roomField 16, lowBits 17 1 2, aligned 20 8 8, cleared 28 36]
  | 0x21 => [aligned 16 8 21, ranged 24 4 1 65536, roomField 28,
      { byte := 30, len := 1, fn := fun s d v => clampPlacement s (BitVec.ofNat 8 (descField d 28 1)) v },
      lowBits 31 1 1, cleared 32 32]
  | 0x22 => [aligned 16 8 21, ranged 24 4 1 65536, cleared 28 1, cleared 29 1, cleared 30 1, cleared 31 1, cleared 32 32]
  | 0x23 => [aligned 16 8 2, ranged 24 4 1 4096, roomField 28, cleared 30 1, cleared 31 1, cleared 32 32]
  | 0x24 => [roomField 16, cleared 17 3, ranged 20 4 1 1600, ranged 24 4 4 1024, ranged 28 4 0 1600, cleared 32 32]
  | 0x25 => [aligned 16 8 6,
      { byte := 24, len := 4, fn := fun _ d v =>
          min (clampNat 1 32768 v) ((2 ^ 21 - descField d 16 8 % 2 ^ 21) / 64) },
      above 28 1 1 0, cleared 29 35]
  | 0x26 => [aligned 16 8 21, countField 24 16 21 65536, cleared 28 4, cleared 32 4, cleared 36 2, cleared 38 1, cleared 39 25]
  | 0x27 => [aligned 16 8 21, countField 24 16 21 65536, ranged 32 4 10 3600000, lowBits 38 1 1, cleared 39 25]
  | 0x28 => [cleared 16 8, cleared 24 4, cleared 28 4, cleared 32 4, cleared 38 1, cleared 39 25]
  | 0x29 => [lowBits 16 4 18,
      { byte := 20, len := 4, fn := fun _ d v => min (clampNat 1 262144 v) (262144 - descField d 16 4) },
      roomField 24, lowBits 26 1 1, cleared 27 37]
  | 0x2A => [roomField 16, above 17 1 1 0, ranged 18 1 1 255, cleared 19 1, ranged 20 4 100 1000000, ranged 24 1 50 100,
      { byte := 25, len := 1, fn := fun _ d v => clampNat 10 (descField d 24 1 - 1) v },
      ranged 26 1 50 100,
      { byte := 27, len := 1, fn := fun _ d v => clampNat 10 (descField d 26 1 - 1) v },
      cleared 28 36]
  | 0x2B => [aligned 16 8 16, countField 24 16 16 1048576, above 28 1 2 1,
      { byte := 29, len := 1, fn := fun s d v =>
          if v ≠ 0xFF ∧ !inSlice s (if room = 0 then tileRoom s (tileKey (descWord d 16)) else room) (descField d 28 1) v then 0xFF else v },
      { byte := 30, len := 1, fn := fun _ _ v => let w := v % 8; if w % 4 = 3 then w - 2 else w },
      cleared 31 1, ranged 32 4 100 4000000, cleared 36 28]
  | 0x2C => [aligned 16 8 5, ranged 24 2 1 4096, above 26 1 1 0,
      { byte := 27, len := 1, fn := fun _ d v => min (clampNat 1 255 v) (descField d 24 2) },
      ranged 28 4 1 (2 ^ 32 - 1), ranged 32 4 100 4000000,
      { byte := 36, len := 4, fn := fun _ d v => if descField d 26 1 = 0 then v % 2 ^ 18 else v },
      { byte := 40, len := 8, fn := fun s d v => if descField d 26 1 = 1 then max v (stamp s 16) else v },
      { byte := 48, len := 8, fn := fun _ d v => if descField d 26 1 = 1 then clampNat 1000000 3600000000000 v else v },
      cleared 56 8]
  | 0x2D => [aligned 16 8 16, countField 24 16 16 1048576] ++ layoutFields 28 ++
      [{ byte := 44, len := 8, fn := fun _ d v => if descField d 30 1 = 0 then v else v - v % 16 }, cleared 52 12]
  | 0x40 => [aligned 16 8 6, cleared 24 40]
  | 0x41 => [cleared 17 3,
      { byte := 20, len := 4, fn := fun _ _ v => let n := clampNat 64 4096 v; n - n % 64 },
      aligned 24 8 6, ranged 32 8 0 (2 ^ 40), aligned 40 8 3, aligned 48 8 3, floorField 56 4 100 4000000, objField 60]
  | 0x42 => [cleared 17 47]
  | 0x48 => [lowBits 16 2 10, ranged 20 2 0 4096, ranged 22 2 1 4096, ranged 24 2 1 4096,
      { byte := 26, len := 1, fn := fun _ d v => min (clampNat 1 16 v) (descField d 24 2) },
      { byte := 27, len := 1, fn := fun _ _ v => if v = 5 ∨ v = 8 ∨ v ≥ 0xC then 1 else v },
      { byte := 53, len := 1, fn := fun _ d v =>
          if 0x9 ≤ descField d 27 1 ∧ descField d 27 1 ≤ 0xB then 1 else v % 2 },
      { byte := 28, len := 2, fn := fun _ d v =>
          let n := clampNat 256 4096 v
          let n := n - n % 256
          if descField d 53 1 = 1 then min 3584 n else n },
      ranged 30 2 1 4096, aligned 32 8 3, aligned 40 8 1, objField 48, ranged 52 1 1 144,
      { byte := 54, len := 1, fn := fun _ _ v => if 16 ≤ v ∧ v ≠ 0xFF then 0xFF else v },
      cleared 55 1, aligned 56 8 6]
  | 0x49 => collRunFields
  | 0x4A => [lowBits 16 2 10, cleared 20 44]
  | 0x60 => [aligned 16 8 6, aligned 24 8 6, ranged 32 2 1 1024,
      { byte := 34, len := 1, fn := fun _ _ v => if 8 ≤ v then 0xFF else v },
      { byte := 35, len := 1, fn := fun _ _ v => if 1 ≤ v ∧ v ≤ 4 then v else 1 },
      ranged 36 1 1 8, ranged 37 1 1 64,
      { byte := 38, len := 1, fn := fun _ d v => min (clampNat 1 16 v) (256 / max 1 (descField d 37 1)) },
      ranged 39 1 1 144,
      { byte := 40, len := 4, fn := fun _ _ v => if v / 2 ^ 23 % 256 = 255 then 0x3F800000 else v },
      floorField 44 4 100 4000000, objField 48, cleared 52 12]
  | 0x61 => [aligned 16 8 3, aligned 24 8 6, ranged 32 2 1 1024, ranged 34 1 1 64, above 35 1 2 0,
      ranged 36 1 1 8, ranged 37 1 1 64,
      { byte := 38, len := 1, fn := fun _ d v => min (clampNat 1 16 v) (256 / max 1 (descField d 37 1)) },
      ranged 39 1 1 144, cleared 40 4, floorField 44 4 100 4000000, objField 48, cleared 52 12]
  | 0x62 => [above 46 1 2 0,
      { byte := 32, len := 8, fn := fun _ d v =>
          if descField d 46 1 = 0 then v - v % 4 else if descField d 46 1 = 1 then v - v % 8 else v },
      ranged 40 4 1 16777216, ranged 44 2 1 4096, ranged 47 1 1 144, floorField 56 4 100 4000000, objField 60]
  | 0x63 => [aligned 32 8 2, aligned 40 8 2, ranged 48 4 1 1048576, ranged 52 2 1 2048,
      { byte := 54, len := 1, fn := fun _ _ v => if v ≤ 4 ∨ v = 7 then v else 1 },
      { byte := 55, len := 1, fn := fun _ _ v => if v % 16 > 2 then v / 16 * 16 else v },
      { byte := 56, len := 1, fn := fun _ d v => if descField d 54 1 = 7 then 6 else if v ≤ 2 then v else 0 },
      cleared 57 1, floorField 58 2 1 4000, objField 60]
  | 0x70 => [roomField 16, cleared 17 3] ++
      ((List.range 8).map fun i =>
        ({ byte := 20 + 2 * i, len := 2, fn := fun s d v => clampTable s (BitVec.ofNat 8 (descField d 16 1)) i v } : Field)) ++
      [{ byte := 36, len := 4, fn := fun s d v => clampGroups s (BitVec.ofNat 8 (descField d 16 1)) v }, cleared 40 24]
  | 0x71 => [aligned 16 8 5, ranged 24 4 1 1048576, lowBits 28 1 3, lowBits 29 1 1, cleared 30 34]
  | 0x72 => [aligned 16 8 5, aligned 24 8 4, ranged 32 4 1 16777216, lowBits 36 1 3, cleared 37 3,
      floorField 40 4 100 4000000, objField 44, cleared 48 16]
  | 0x73 => [aligned 16 8 6, ranged 24 4 64 100663296, ranged 29 1 1 32, cleared 30 34]
  | 0x74 => [cleared 17 47]
  | 0x75 => [aligned 16 8 4, ranged 24 4 1 65536,
      { byte := 29, len := 1, fn := fun s d v =>
          let unbounded : Bool := match s.filt.automata.find? (fun a => a.id == descField d 28 1) with
            | some a => a.span == 0
            | none => false
          if v > 1 then 1 else if v == 0 && unbounded then 1 else v },
      above 30 2 0x0100 0x0100,
      { byte := 32, len := 1, fn := fun _ d v => if v > 1 ∨ (v = 1 ∧ descField d 29 1 = 0) then 0 else v },
      lowBits 33 1 1, floorField 36 4 100 4000000, aligned 40 8 4, aligned 48 8 4, objField 56, cleared 60 4]
  | 0x80 => [aligned 24 8 6, cleared 32 32]
  | 0x81 => [aligned 16 8 6, aligned 24 8 21, ranged 32 4 100 4000000, lowBits 37 1 1, cleared 38 2, aligned 40 8 4, cleared 48 16]
  | 0x82 => [cleared 17 47]
  | 0x83 => [aligned 16 8 6, ranged 24 4 8193 8396800, above 28 1 1 0, cleared 29 35]
  | 0x90 => [{ byte := 16, len := 8, fn := fun _ _ v => clampHealth v }, cleared 24 8, cleared 32 8, cleared 40 24]
  | 0x91 => [ranged 24 4 1 65536, cleared 28 4, aligned 32 8 6, cleared 40 24]
  | 0x92 => [aligned 16 8 21, ranged 24 4 1 65536, ranged 28 4 100 1000000, cleared 32 8, cleared 40 24]
  | 0xA0 => [{ byte := 16, len := 2, fn := fun s _ v => clampCap s v }, cleared 18 46]
  | _ => []

/-! ### The clamp (R198 to R200, R213) -/

/-- A descriptor as clamped so far, the fields changed, and the first byte of the last one. -/
structure Clamped where
  d : BitVec 512
  count : Nat
  last : Nat
  deriving DecidableEq, Repr

/-- Gives a field its value; a change is counted. -/
def setField (c : Clamped) (byte len v : Nat) : Clamped :=
  if descField c.d byte len = v % 2 ^ (8 * len) then c
  else { d := putField c.d byte len v, count := c.count + 1, last := byte }

/-- Bytes 0 to 15, at a test at fabric time `tA` on a ring of room `room`. -/
def clampHeader (room : RoomId) (tA : Nat) (d : BitVec 512) : Clamped :=
  let c : Clamped := { d := d, count := 0, last := 0 }
  let c := setField c 0 2 (descField c.d 0 2 % 2 ^ 15)
  let c := if knownOp (descOp c.d) then c else setField c 0 2 (descField c.d 0 2 / 4096 * 4096)
  let c := setField c 2 1 room.toNat
  let c := setField c 3 1 (clampClass (descOp c.d) (descClass c.d))
  if descClass c.d = 0 then setField c 8 8 (clampNat tA (tA + 2000000) (descDeadline c.d)) else c

/-- Every clamp of a descriptor, in order of the fields. -/
def clampDesc (s : State) (room : RoomId) (tA : Nat) (d : BitVec 512) : Clamped :=
  let c := clampHeader room tA d
  (fieldsOf c.d).foldl (fun c f => setField c f.byte f.len (f.fn s c.d (descField c.d f.byte f.len))) c

/-- Counts clamps in the ring's registers (Table 9-12). -/
def countClamps (s : State) (r : BitVec 12) (op count byte : Nat) : State :=
  if count = 0 then s
  else updRing s r fun x => { x with clampOp := BitVec.ofNat 12 op, clampByte := byte, clamps := x.clamps + count }

/-- A further clamp that only the work itself can make (a value read from memory, or a limit of that instant). -/
def clampLate (s : State) (e : Nat) (byte len v : Nat) : State :=
  match ledgerEntry s e with
  | none => s
  | some en =>
    let c := setField { d := en.desc, count := 0, last := 0 } byte len v
    if c.count = 0 then s
    else countClamps (updLedger s e fun x => { x with desc := c.d, clamps := x.clamps + 1 }) en.ring (descOp en.desc) 1 byte

end Sys2Proof.Machine
end

