-- ==== Sys2Proof/Machine/Plan.lean ====
section
/-!
DEFINITION. Machine/Plan.lean: the innkeeper's calendar and the search for a plan (R323 to R326, R331, R337, R461, R462).
Rates are in MB/s, which is bytes in a bucket of 1 us; power in mW; times in ns.
-/

namespace Sys2Proof.Machine

/-! ### Demands -/

/-- What a term of a bound formula draws its rate from. -/
inductive Supply where
  /-- tier-0 bandwidth of the controllers that hold the data. -/
  | hbm (cs : List Nat)
  /-- fabric or bridge ports that the transfers are spread over (R462), or the one that h_f chooses. -/
  | port (ps : List Nat) (out : Bool)
  /-- porters at 62.5 GB/s each, up to the rate that the trays declare. -/
  | porters (cap : Nat)
  /-- cluster cycles. -/
  | clusters
  /-- lookups of an array. -/
  | array (a : Nat)
  /-- automata engines at a fixed rate. -/
  | engines (rate : Nat)
  deriving DecidableEq, Repr

/-- A term: `vol` units at the rate of its supply. -/
structure Term where
  vol : Nat
  sup : Supply
  deriving DecidableEq, Repr

/-- What a descriptor needs: phases run one after the other, the terms of a phase side by side; `fixed` is the sum of the
formula's fixed times. -/
structure Demand where
  phases : List (List Term) := []
  fixed : Nat := 0
  /-- clusters that may serve it and how many of them it takes (R28). -/
  from_ : List Nat := []
  clusters : Nat := 0
  /-- engine groups it books. -/
  groups : List Nat := []
  /-- engines scanning. -/
  engines : Nat := 0
  /-- ports whose links its transfers cross (R324). -/
  links : List Nat := []
  /-- the size that an elastic floor divides, in bytes, and the floor. -/
  size : Nat := 0
  floor : Nat := 0
  /-- its room lacks clusters or groups it needs. -/
  lacks : Bool := false
  deriving DecidableEq, Repr

/-! ### The calendar -/

/-- Tests of R326, in order: nothing, then ports, then the other resources, then energy, then heat. -/
abbrev Level := Nat

def isPortRes : Resource → Bool
  | .port _ _ => true
  | _ => false

/-- Amount of a resource booked at an instant. -/
def bookedAt (s : State) (r : Resource) (t : Nat) : Nat :=
  ((s.innk.bookings.filter (fun b => b.res == r && decide (b.from_ ≤ t) && (b.floor || decide (t < b.to_)))).map
    (fun b => b.amount)).sum

/-- Largest amount booked in any bucket of [a, b): bookings change only where one starts. -/
def bookedMax (s : State) (r : Resource) (a b : Nat) : Nat :=
  let starts := (s.innk.bookings.filter (fun x => x.res == r && decide (a < x.from_) && decide (x.from_ < b))).map (fun x => x.from_)
  ((a :: starts).map (bookedAt s r)).foldl max 0

/-- Effective cap in mW (R332). -/
def effectiveCap (s : State) : Nat := min s.innk.capSw s.innk.capBmc * 1000

/-- A room's share in permille; room 0x00 draws on what no room holds (R331). -/
def roomShare (s : State) (r : RoomId) : Nat :=
  if r = 0 then
    1000 - ((s.rooms.rooms.filter (fun x => x.id != 0)).map (fun x => (match x.cur.find? (fun y => y.switch == selfId s) with
      | some y => y.share
      | none => 0))).sum
  else match sliceOf s r with
    | some y => y.share
    | none => 0

/-- Limit of a resource per bucket (Table 14-2). -/
def limitOf (s : State) : Resource → Nat
  | .port p _ => portRate s p * 900
  | .cluster c => if isRetired s 0x01 c then 0 else 1
  | .hbm c => if isRetired s 0x06 c then 0 else 600250 * (8 - retiredChannels s c) / 8
  | .porters => 64 - ((List.range 64).filter (fun i => isRetired s 0x09 i)).length
  | .array a => if isRetired s 0x07 a then 0 else 1584
  | .engineGroup _ => 1
  | .energy r => roomShare s r * (effectiveCap s - fixedForecast s) / 1000
  | .heat _ => 0

/-- Free amount over [a, b): bookings of a class that the level does not test are disregarded. -/
def freeOf (s : State) (lv : Level) (r : Resource) (a b : Nat) : Nat :=
  if (isPortRes r && decide (lv ≥ 1)) || decide (lv ≥ 2) then limitOf s r - bookedMax s r a b else limitOf s r

/-! ### Rates and durations -/

/-- Smallest of a list; 0 of none. -/
def minOf : List Nat → Nat
  | [] => 0
  | [x] => x
  | x :: l => min x (minOf l)

/-- The rate of a supply over [a, b) at cluster clock `mhz`. -/
def supplyRate (s : State) (lv : Level) (dm : Demand) (mhz a b : Nat) : Supply → Nat
  | .hbm cs => (cs.map (fun c => freeOf s lv (.hbm c) a b)).sum
  | .port ps out => ps.length * minOf (ps.map (fun p => freeOf s lv (.port p out) a b))
  | .porters cap => min cap (62500 * freeOf s lv .porters a b)
  | .clusters => dm.clusters * mhz
  | .array k => freeOf s lv (.array k) a b
  | .engines r => r

/-- Duration of a volume at a rate, in ns; none where the rate is zero. -/
def termTime (vol rate : Nat) : Option Nat :=
  if vol = 0 then some 0 else if rate = 0 then none else some ((vol * 1000 + rate - 1) / rate)

/-- The longest of a phase's terms. -/
def phaseTime (s : State) (lv : Level) (dm : Demand) (mhz a b : Nat) (ts : List Term) : Option Nat :=
  ts.foldl (fun acc t => match acc, termTime t.vol (supplyRate s lv dm mhz a b t.sup) with
    | some x, some y => some (max x y)
    | _, _ => none) (some 0)

/-- The whole duration with the rates free over [a, b). -/
def planTime (s : State) (lv : Level) (dm : Demand) (mhz a b : Nat) : Option Nat :=
  dm.phases.foldl (fun acc ts => match acc, phaseTime s lv dm mhz a b ts with
    | some x, some y => some (x + y)
    | _, _ => none) (some dm.fixed)

/-- Extends the span until the rates that are free over it carry the work within it (R325); 64 rounds bound it. -/
def settleTime (s : State) (lv : Level) (dm : Demand) (mhz a : Nat) : Nat → Nat → Option Nat
  | 0, _ => none
  | k + 1, len =>
    match planTime s lv dm mhz a (a + max 1 len) with
    | none => none
    | some t => if t ≤ len then some t else settleTime s lv dm mhz a k t

/-! ### What a plan books -/

/-- Power of a cluster at a clock, in mW (Table 14-3: the next listed step above). -/
def clusterMw (mhz : Nat) : Nat :=
  if mhz ≤ 800 then 630 else if mhz ≤ 1000 then 820 else if mhz ≤ 1200 then 1040 else if mhz ≤ 1400 then 1280
  else if mhz ≤ 1600 then 1550 else if mhz ≤ 1800 then 1820 else if mhz ≤ 2000 then 2110 else if mhz ≤ 2200 then 2420
  else 2780

/-- mW of a byte rate at tenths of pJ per byte. -/
def rateMw (rate tenths : Nat) : Nat := (rate * tenths + 9999) / 10000

/-- The I/O die of a port, as an index of Table 19-9's dies. -/
def portDie (s : State) (p : Nat) : Nat :=
  if p < 128 then (if fabGroup s p < 28 then 6 else 7)
  else if p < 144 then (if p - 128 < 8 then 6 else 7)
  else (if p - 144 < 8 then 6 else 7)

/-- Bookings of one supply at a rate: resources with amounts, and power with its die. -/
def supplyBooks (s : State) (rate : Nat) : Supply → List (Resource × Nat) × List (Nat × Nat)
  | .hbm cs =>
    let n := max 1 cs.length
    let per := (rate + n - 1) / n
    (cs.map (fun c => (.hbm c, per)), cs.map (fun c => (4 + c / 8, rateMw per 112)))
  | .port ps out =>
    let n := max 1 ps.length
    let per := (rate + n - 1) / n
    (ps.map (fun p => (.port p out, per)), ps.map (fun p => (portDie s p, rateMw per 166)))
  | .porters _ =>
    let k := (rate + 62499) / 62500
    ([(.porters, k)], [(4, k * 375), (5, k * 375)])
  | .clusters => ([], [])
  | .array a => ([(.array a, rate)], [(4 + a / 4, (rate * 19 + 9) / 10)])
  | .engines _ => ([], [])

/-- A plan: its span, its clock, and what it books. -/
structure Plan where
  start : Nat
  stop : Nat
  mhz : Nat
  clusters : List Nat
  books : List (Resource × Nat)
  heats : List (Nat × Nat)
  deriving DecidableEq, Repr

/-- Clusters that are free over a span, the needed number of them in ascending order. -/
def takeClusters (s : State) (lv : Level) (dm : Demand) (a b : Nat) : List Nat :=
  (dm.from_.filter (fun c => !isRetired s 0x01 c && decide (freeOf s lv (.cluster c) a b ≥ 1))).take dm.clusters

/-- The bookings of a plan at given rates. -/
def planBooks (s : State) (dm : Demand) (mhz : Nat) (cs : List Nat) (rates : List (Supply × Nat)) (a b : Nat) : Plan :=
  let parts := rates.map (fun x => supplyBooks s x.2 x.1)
  let heats := parts.flatMap (fun x => x.2) ++ cs.map (fun c => (c / 36, clusterMw mhz)) ++
    dm.groups.map (fun g => (g / 8, (dm.engines * 200 + dm.groups.length - 1) / max 1 dm.groups.length))
  { start := a, stop := b, mhz := mhz, clusters := cs
    books := parts.flatMap (fun x => x.1) ++ cs.map (fun c => (.cluster c, 1)) ++ dm.groups.map (fun g => (.engineGroup g, 1))
    heats := heats }

/-- Power of a plan in mW. -/
def planMw (p : Plan) : Nat := (p.heats.map (fun x => x.2)).sum

/-- A guaranteed plan that starts at `a` (R325). -/
def guaranteedPlan (s : State) (lv : Level) (dm : Demand) (mhz a : Nat) : Option Plan :=
  match settleTime s lv dm mhz a 64 dm.fixed with
  | none => none
  | some len =>
    let b := a + max 1 len
    let rates := (dm.phases.flatMap id).map (fun t => (t.sup, supplyRate s lv dm mhz a b t.sup))
    some (planBooks s dm mhz (takeClusters s lv dm a b) rates a (a + len))

/-- An elastic plan that starts at `a`: every volume in proportion to the floor (R325). -/
def floorPlan (s : State) (lv : Level) (dm : Demand) (mhz a : Nat) : Option Plan :=
  let len := (dm.size * 1000 + dm.floor - 1) / max 1 dm.floor
  let rates := (dm.phases.flatMap id).map (fun t => (t.sup, (t.vol * dm.floor + dm.size - 1) / max 1 dm.size))
  let need := ((dm.phases.flatMap id).filter (fun t => t.sup == .clusters)).map
    (fun t => (t.vol * dm.floor + dm.size - 1) / max 1 dm.size)
  if need.any (fun r => decide (r > dm.clusters * mhz)) then none
  else some (planBooks s dm mhz (takeClusters s lv dm a (a + len)) rates a (a + len))

/-! ### Limits (R323, R331, R337) -/

/-- Sums the amounts of equal resources. -/
def mergeBooks (l : List (Resource × Nat)) : List (Resource × Nat) :=
  (l.map (fun x => x.1)).eraseDups.map (fun r => (r, ((l.filter (fun x => x.1 == r)).map (fun x => x.2)).sum))

/-- fits(): every booked resource within its limit; the plan has its clusters. -/
def planFits (s : State) (lv : Level) (dm : Demand) (p : Plan) : Bool :=
  decide (p.clusters.length ≥ dm.clusters) &&
    (mergeBooks p.books).all (fun x => decide (x.2 ≤ freeOf s lv x.1 p.start (max (p.start + 1) p.stop)))

def isEnergy : Resource → Bool
  | .energy _ => true
  | _ => false

/-- Energy booked by all rooms at an instant, and its largest value in [a, b), in mW. -/
def energyAt (s : State) (t : Nat) : Nat :=
  ((s.innk.bookings.filter (fun b => isEnergy b.res && decide (b.from_ ≤ t) && (b.floor || decide (t < b.to_)))).map
    (fun b => b.amount)).sum
def energyMax (s : State) (a b : Nat) : Nat :=
  let starts := (s.innk.bookings.filter (fun x => isEnergy x.res && decide (a < x.from_) && decide (x.from_ < b))).map (fun x => x.from_)
  ((a :: starts).map (energyAt s)).foldl max 0

/-- The energy of all rooms and the share of the plan's room (R323, R331). -/
def energyOk (s : State) (room : RoomId) (p : Plan) : Bool :=
  let b := max (p.start + 1) p.stop
  let all := energyMax s p.start b
  decide (all + planMw p ≤ effectiveCap s - fixedForecast s)
    && decide (bookedMax s (.energy room) p.start b + planMw p ≤ limitOf s (.energy room))

/-- θ of a die in 0.001 K/W. -/
def theta (s : State) (die : Nat) : Nat := bitsAt (rwl s (innkBase + 8)) (8 * die) 8

/-- No booking on a die in the 105 C condition (R338). -/
def hotOk (s : State) (p : Plan) : Bool := p.heats.all fun x => x.2 == 0 || !s.innk.hot.contains x.1

/-- heat_ok(): T_hot + θ max(0, P_booked - P_measured) at most 103 C, in 0.25 C × 10^6 units (R337). -/
def heatOk (s : State) (p : Plan) : Bool :=
  (List.range 8).all fun die =>
    let add := ((p.heats.filter (fun x => x.1 == die)).map (fun x => x.2)).sum
    let b := max (p.start + 1) p.stop
    let booked := bookedMax s (.heat die) p.start b + add
    let excess := booked - s.innk.dieMw.getD die 0
    decide (add = 0) || decide (s.innk.temps.getD die 0 * 250000 + theta s die * excess ≤ 103000000)

/-- Whether a plan passes the tests of a level. -/
def planOk (s : State) (lv : Level) (room : RoomId) (dm : Demand) (p : Plan) : Bool :=
  planFits s lv dm p && (decide (lv < 3) || energyOk s room p) && (decide (lv < 4) || heatOk s p) && (decide (lv < 5) || hotOk s p)

/-! ### The search (R325) -/

/-- Cluster clock steps of 25 MHz, lowest first (R11, R1); one step, none, without clusters. -/
def clockSteps (s : State) (dm : Demand) : List Nat :=
  if dm.clusters = 0 then [0]
  else (List.range (if s.fuses.a20 then 49 else 65)).map (fun k => 800 + 25 * k)

/-- m of R324. -/
def margin (s : State) (dm : Demand) : Nat :=
  dedupeWindow s + (if dm.links.isEmpty then 0 else 4 * ((dm.links.map Config.linkRtt).foldl max 0 + 200))

/-- Finds the first element of a list that `f` maps to some value. -/
def firstSome {α β : Type} (f : α → Option β) : List α → Option β
  | [] => none
  | x :: l => match f x with
    | some y => some y
    | none => firstSome f l

/-- The guaranteed search at a level: highest clock first, then earliest start; `by_` is the deadline, none for any. -/
def searchGuaranteed (s : State) (lv : Level) (room : RoomId) (dm : Demand) (tA : Nat) (by_ : Option Nat) : Option Plan :=
  firstSome (fun mhz => firstSome (fun k =>
    match guaranteedPlan s lv dm mhz (tA + 1000 * k) with
    | none => none
    | some p =>
      let late : Bool := match by_ with
        | some t => decide (p.stop + margin s dm > t)
        | none => decide (p.stop > tA + 2048000)
      if !late && planOk s lv room dm p then some p else none) (List.range 2049)) (clockSteps s dm).reverse

/-- The elastic search at a level: lowest clock first. -/
def searchFloor (s : State) (lv : Level) (room : RoomId) (dm : Demand) (tA : Nat) : Option Plan :=
  firstSome (fun mhz => firstSome (fun k =>
    match floorPlan s lv dm mhz (tA + 1000 * k) with
    | none => none
    | some p => if planOk s lv room dm p then some p else none) (List.range 2049)) (clockSteps s dm)

/-- Why a floor cannot be booked: heat where only the 105 C condition of a die stands against it (R326, R338). -/
def floorReason (s : State) (room : RoomId) (dm : Demand) (tA : Nat) : Nat :=
  if (searchFloor s 4 room dm tA).isSome then 0x04 else 0x05

/-- R326: the first class of resources that falls short; 0x01 where not even an empty calendar meets the deadline. -/
def shortReason (s : State) (room : RoomId) (dm : Demand) (tA deadline : Nat) : Nat :=
  if (searchGuaranteed s 0 room dm tA (some deadline)).isNone then 0x01
  else if (searchGuaranteed s 1 room dm tA (some deadline)).isNone then 0x02
  else if (searchGuaranteed s 2 room dm tA (some deadline)).isNone then 0x01
  else if (searchGuaranteed s 3 room dm tA (some deadline)).isNone then 0x03
  else 0x04

/-- The earliest deadline that the search could have accepted at tA (R326). -/
def earliestDeadline (s : State) (room : RoomId) (dm : Demand) (tA : Nat) : Nat :=
  let ends := (clockSteps s dm).filterMap (fun mhz => firstSome (fun k =>
    match guaranteedPlan s 5 dm mhz (tA + 1000 * k) with
    | none => none
    | some p => if decide (p.stop ≤ tA + 2048000) && planOk s 5 room dm p then some (p.stop + margin s dm) else none)
    (List.range 2049))
  let t := minOf ends
  if t > tA + 2000000 then 0 else t

/-! ### Cluster clocks (R11, R336) -/

/-- The room of a cluster, by the live epochs. -/
def clusterRoom (s : State) (c : Nat) : Option RoomId :=
  (s.rooms.rooms.find? (fun x => (liveSlices s x).any (fun y => y.switch == selfId s && y.clusters.getLsbD c))).map fun x => x.id

/-- A cluster of no room: parked at 0.8 GHz, its clock gated. -/
def clusterGated (s : State) (c : Nat) : Bool := (clusterRoom s c).isNone

/-- The clock that bookings give a cluster: the highest, or 0.8 GHz. -/
def bookedClock (s : State) (c : Nat) : Nat := ((s.engine.booked.filter (fun x => x.1 == c)).map (fun x => x.2.1)).foldl max 800

/-- The clock of a cluster now. -/
def clusterClock (s : State) (c : Nat) : Nat := ((s.engine.clocks.find? (fun x => x.1 == c)).map (fun x => x.2)).getD 800

/-- Sets the clocks of some clusters. -/
def setClocks (s : State) (l : List (Nat × Nat)) : State :=
  { s with engine := { s.engine with
    clocks := s.engine.clocks.filter (fun x => !l.any (fun y => y.1 == x.1)) ++ l.filter (fun y => y.2 != 800) } }

/-- Some clusters run at their booked clocks. -/
def settleClocks (s : State) (cs : List Nat) : State := setClocks s (cs.map fun c => (c, bookedClock s c))

/-- Clusters that belong to no room any more are parked. -/
def parkClusters (s : State) : State :=
  { s with engine := { s.engine with clocks := s.engine.clocks.filter (fun x => !clusterGated s x.1) } }

/-- Books a plan for entry `e` (R323). -/
def bookPlan (s : State) (e : Nat) (room : RoomId) (floor : Bool) (p : Plan) : State :=
  let mk := fun (r : Resource) (a : Nat) => ({ e := e, res := r, amount := a, from_ := p.start, to_ := p.stop, floor := floor } : Booking)
  let l := (mergeBooks p.books).map (fun x => mk x.1 x.2) ++ [mk (.energy room) (planMw p)] ++
    p.heats.map (fun x => mk (.heat x.1) x.2)
  settleClocks { s with
    innk := { s.innk with bookings := s.innk.bookings ++ l.filter (fun b => b.amount != 0) }
    engine := { s.engine with booked := s.engine.booked ++ p.clusters.map (fun c => (c, p.mhz, e)) } } p.clusters

/-- Releases every booking of an entry; a cluster that none holds is parked at 0.8 GHz (R226). -/
def unbook (s : State) (e : Nat) : State :=
  let cs := (s.engine.booked.filter (fun x => x.2.2 == e)).map (fun x => x.1)
  settleClocks { s with
    innk := { s.innk with bookings := s.innk.bookings.filter (fun b => b.e != e) }
    engine := { s.engine with booked := s.engine.booked.filter (fun x => x.2.2 != e) } } cs

/-! ### Paths of transfers -/

/-- Ports toward a home; none here. -/
def portsTo (s : State) (room : RoomId) (x : SwitchId) : List Nat :=
  if isHome s x then [] else match pathSetOf s room (currentEpoch s room) (.home x) with
    | some p => livePorts s p
    | none => []

/-- t_dec of a tile-compressed tile, by the symbol width of its format (R152). -/
def decodeNs (t : Tile) (writes : Bool) : Nat :=
  if !isCompressed t.res then 0
  else (if symbolBits (t.layout.toNat % 256) = 4 then 1500 else 1200) * (if writes then 2 else 1)

/-- The home bound of a guaranteed line request (Table 7-1). -/
def tileBound (s : State) (t : Tile) (writes : Bool) : Nat :=
  620 + (if t.res.tier = 0 then 0 else (match trayDecl s t.res.tier t.res.unit with
    | some d => d.bound
    | none => 0)) + decodeNs t writes

/-- b_rec: the bound of R95 of a read or a write at a home. -/
def homeBound (s : State) (g : Word) (writes : Bool := false) : Nat :=
  if isHome s (homeOf g) then (match tileOf s (tileKey g) with
    | some t => tileBound s t writes
    | none => 620)
  else 620 + 2 * 850 * max 1 (Config.crossings (homeOf g).toNat)

/-- Controllers of the tier-0 tiles of an address range at this home. -/
def hbmOf (s : State) (g : Word) (n : Nat) : List Nat :=
  ((s.maps.tiles.filter (fun t => decide (tileKey g ≤ t.key) && decide (t.key * 65536 < g.toNat + n) && t.res.tier == 0)).map
    (fun t => t.res.unit)).eraseDups

/-- Bytes of a range at this home that lie in tier 0 and on trays. -/
def splitBytes (s : State) (g : Word) (n : Nat) : Nat × Nat :=
  let ts := s.maps.tiles.filter (fun t => decide (tileKey g ≤ t.key) && decide (t.key * 65536 < g.toNat + n))
  let on := fun (t : Tile) => min (g.toNat + n) (t.key * 65536 + 65536) - max g.toNat (t.key * 65536)
  (((ts.filter (fun t => t.res.tier == 0)).map on).sum, ((ts.filter (fun t => t.res.tier != 0)).map on).sum)

/-- Declared read or write rate of a room's trays, in MB/s. -/
def trayRate (s : State) (room : RoomId) (write : Bool) : Nat :=
  (([1, 2].flatMap (fun t => (roomUnits s room t).map (fun n => (match trayDecl s t n with
    | some d => (if write then d.writeRate else d.readRate) * 1000
    | none => 0)))).sum)

/-- Controllers of a room's slice. -/
def roomHbm (s : State) (room : RoomId) : List Nat := roomUnits s room 0

/-- The term of a transfer of `n` bytes at an address: tier-0 bandwidth here, the path's ports otherwise. -/
def moveTerm (s : State) (room : RoomId) (g : Word) (n : Nat) (out : Bool) : Term :=
  if isHome s (homeOf g) then
    { vol := n, sup := .hbm (if (hbmOf s g n).isEmpty then roomHbm s room else hbmOf s g n) }
  else { vol := n, sup := .port (portsTo s room (homeOf g)) out }

/-- Clusters that descriptors other than `e` are to hold, or hold until their final record (R225, R255, R275). -/
def claimed (s : State) (e : Option Nat) (c : Nat) : Bool :=
  s.ledger.entries.any fun x => some x.n != e && !x.recorded && descOp x.desc != 0x73 && x.claims.contains c

/-- Clusters of a room's slice that no open caravan or context holds, nor any descriptor but `e` (R225, R255, R275). -/
def clustersFor (s : State) (room : RoomId) (e : Option Nat) : List Nat :=
  match sliceOf s room with
  | some y => (List.range 144).filter (fun c => y.clusters.getLsbD c && !isRetired s 0x01 c
      && !s.engine.caravans.any (fun v => v.stages.any (fun g => g.clusters.contains c))
      && !s.coll.ctxs.any (fun x => x.clusters.contains c) && !claimed s e c)
  | none => []

def freeClusters (s : State) (room : RoomId) : List Nat := clustersFor s room none

/-! ### Placement (R225) -/

/-- Free clusters of a die. -/
def onDie (free : List Nat) (d : Nat) : List Nat := free.filter (fun c => c / 36 == d)

/-- Takes `n` clusters on the fewest dies: the dies with the most free clusters, then ascending numbers. -/
def fewestDies (free : List Nat) (n : Nat) : List Nat :=
  let dies := (List.range 4).mergeSort (fun a b => decide ((onDie free b).length ≤ (onDie free a).length))
  let k := ((List.range 5).find? (fun k => decide (n ≤ ((dies.take k).flatMap (onDie free)).length))).getD 4
  (free.filter (fun c => (dies.take k).contains (c / 36))).take n

/-- The clusters of one stage; `prev` are the dies that a same-die stage may take. -/
def placeStage (free : List Nat) (n : Nat) (sameDie : Bool) (prev : List Nat) : Option (List Nat) :=
  if free.length < n then none
  else
    let fits := fun (d : Nat) => decide (n ≤ (onDie free d).length)
    match (if sameDie then prev.filter fits else []) with
    | d :: _ => some ((onDie free d).take n)
    | [] => match maxBy (fun d => (onDie free d).length) (List.range 4) with
      | some d => if fits d then some ((onDie free d).take n) else some (fewestDies free n)
      | none => none

/-- The clusters that a descriptor of one stage takes; none if the room lacks them (R275). -/
def pickClusters (s : State) (room : RoomId) (n : Nat) : List Nat := (placeStage (freeClusters s room) n false []).getD []

end Sys2Proof.Machine
end

