-- ==== Sys2Proof/Machine/Rooms.lean ====
section
/-!
DEFINITION. Machine/Rooms.lean: composition maps and epochs (R24, R28 to R37, R464), binding (R39, R40, R155, R156),
sharing domains (R26) and revocation (R41 to R46) as operations that their commands share.
-/

namespace Sys2Proof.Machine

/-! ### Reading what a descriptor names -/

/-- A byte of host memory that the management link brought. -/
def outByte (x : Cells) (a : Nat) : Option Byte := (x.bytes.find? (fun c => c.1 == a)).map (fun c => c.2)

/-- A record or list that a descriptor names. A descriptor of room 0x00 reads it outside the pool: no extent can be bound
to room 0x00 by EXTENT_BIND, and its rings lie at the PF (R23, R196). -/
def listRead (s : State) (en : Entry) (x : Cells) (g : Word) (n : Nat) : Got :=
  if entryRoom en = 0 then
    match x.status.find? (fun c => decide (g.toNat / 64 ≤ c.1) && decide (c.1 * 64 < g.toNat + n)) with
    | some c => { bytes := List.replicate n 0xFF, status := c.2.toNat }
    | none =>
      if (List.range n).all (fun i => (outByte x (g.toNat + i)).isSome) then
        { bytes := (List.range n).map fun i => (outByte x (g.toNat + i)).getD 0xFF, status := 0x00 }
      else { bytes := List.replicate n 0xFF, status := 0x04 }
  else ownRead s en.n g n

/-- Adds clamps of a record that a descriptor names to its count and to its ring's (R213). -/
def recordClamps (s : State) (en : Entry) (n : Nat) : State :=
  if n = 0 then s
  else countClamps (updLedger s en.n fun x => { x with clamps := x.clamps + n }) en.ring (descOp en.desc) n 20

/-- Clamps counted for a descriptor so far. -/
def clampsOf (s : State) (e : Nat) : Nat :=
  match ledgerEntry s e with
  | some en => en.clamps
  | none => 0

/-- A descriptor is executed from a ring of room 0x00 or of room `r`. -/
def fromRoom (en : Entry) (r : RoomId) : Bool := entryRoom en == 0 || entryRoom en == r

/-! ### Composition records (Table 2-6) -/

/-- The slices that a room holds at this switch: of its live epochs and of one being committed (R28, R464). -/
def slicesHere (s : State) (x : Room) : List Slice :=
  (x.cur ++ x.old ++ ((x.commit.map (fun c => c.slices)).getD [])).filter (fun y => y.switch == selfId s)

/-- Slices of other rooms at this switch (R464). -/
def otherSlices (s : State) (r : RoomId) : List Slice :=
  (s.rooms.rooms.filter (fun x => x.id != r)).flatMap (slicesHere s)

/-- The larger of the old and new value of a quantity of each other room's slice, summed (R464). -/
def othersSum (s : State) (r : RoomId) (q : Slice → Nat) : Nat :=
  ((s.rooms.rooms.filter (fun x => x.id != r)).map fun x =>
    ((slicesHere s x).map q).foldl max 0).sum

/-- Whether a ring is owned by another room: by its booking, or, for room 0x00, ring 0 and every enabled ring that no
room books (R196). -/
def ringTaken (s : State) (r : RoomId) (k : Nat) : Bool :=
  (otherSlices s r).any (fun y => decide (y.ring0 ≤ k) && decide (k < y.ring0 + y.nrings))
    || k == 0 || s.ledger.rings.any (fun x => x.enabled && x.room == 0 && x.id.toNat == k)

/-- Units that still hold tiles of a room in a tier. -/
def heldUnits (s : State) (r : RoomId) (tier : Nat) : List Nat :=
  (((((movers s).filter (fun m => tileRoom s m.key == r)).flatMap placesOf).filter (fun d => d.tier == tier)).map
    (fun d => d.unit)).eraseDups

/-- A bitmap of the elements of `List.range w` that meet `p`. -/
def bitmapOf (w : Nat) (p : Nat → Bool) : BitVec w :=
  BitVec.ofNat w (((List.range w).filter p).foldl (fun n i => n + 2 ^ i) 0)

/-- A slice as its record's bytes give it. -/
def readSlice (sw : SwitchId) (b : List Byte) (members : List AgentId) : Slice :=
  { switch := sw, share := leAt b 0 2, ring0 := leAt b 2 2, nrings := leAt b 4 2
    clusters := BitVec.ofNat 144 (leAt b 8 18), hbm := BitVec.ofNat 16 (leAt b 26 2), trays := BitVec.ofNat 64 (leAt b 28 8)
    fabPorts := BitVec.ofNat 128 (leAt b 36 16), brgPorts := BitVec.ofNat 16 (leAt b 52 2)
    flexPorts := BitVec.ofNat 16 (leAt b 54 2), funcs := BitVec.ofNat 64 (leAt b 56 8)
    quota0 := leAt b 64 8, quota1 := leAt b 72 8, quota2 := leAt b 80 8, members := members }

/-- Bits of units that still hold extents of the room are set again; functions not configured are cleared (R37). -/
def clampHeld (s : State) (r : RoomId) (y : Slice) : Slice :=
  if y.switch != selfId s then y
  else
    let t1 := heldUnits s r 1 ++ heldUnits s r 2
    { y with
      hbm := bitmapOf 16 (fun c => y.hbm.getLsbD c || (heldUnits s r 0).contains c)
      trays := bitmapOf 64 (fun c => y.trays.getLsbD c || t1.contains c)
      funcs := bitmapOf 64 (fun n => y.funcs.getLsbD n && (n == 0 || decide (n ≤ s.mgmt.numVfs))) }

/-- The clamps of Table 2-6. Those that rest on another switch's own state are that switch's to make. -/
def clampSlice (s : State) (r : RoomId) (y : Slice) : Slice :=
  let ring0 := y.ring0 % 4096
  let n := min (min y.nrings 4096) (4096 - ring0)
  if y.switch != selfId s then { y with share := min y.share 1000, ring0 := ring0, nrings := n }
  else
    let n := ((List.range n).find? (fun k => ringTaken s r (ring0 + k))).getD n
    let others := otherSlices s r
    let y := { y with
      share := min y.share (1000 - othersSum s r (fun z => z.share))
      ring0 := ring0
      nrings := n
      clusters := bitmapOf 144 (fun c => y.clusters.getLsbD c && !isRetired s 0x01 c && !others.any (fun z => z.clusters.getLsbD c)
        && !s.engine.caravans.any (fun v => v.room != r && v.stages.any (fun g => g.clusters.contains c))
        && !s.coll.ctxs.any (fun v => v.room != r && v.clusters.contains c))
      hbm := bitmapOf 16 (fun c => y.hbm.getLsbD c && !isRetired s 0x06 c)
      trays := bitmapOf 64 (fun k => y.trays.getLsbD k && (match trayOf s k with
        | some t => t.present
        | none => false))
      fabPorts := bitmapOf 128 (fun k => y.fabPorts.getLsbD k && fabEn s k)
      brgPorts := bitmapOf 16 (fun k => y.brgPorts.getLsbD k && brgEn s k)
      flexPorts := bitmapOf 16 (fun k => y.flexPorts.getLsbD k && flexEn s k)
      quota0 := min y.quota0 (quotaCapacity s 0 - othersSum s r (fun z => z.quota0))
      quota1 := min y.quota1 (quotaCapacity s 1 - othersSum s r (fun z => z.quota1))
      quota2 := min y.quota2 (quotaCapacity s 2 - othersSum s r (fun z => z.quota2)) }
    clampHeld s r y

/-- Fields in which two slices differ. -/
def sliceDiff (a b : Slice) : Nat :=
  ([a.share != b.share, a.ring0 != b.ring0, a.nrings != b.nrings, a.clusters != b.clusters, a.hbm != b.hbm,
    a.trays != b.trays, a.fabPorts != b.fabPorts, a.brgPorts != b.brgPorts, a.flexPorts != b.flexPorts,
    a.funcs != b.funcs, a.quota0 != b.quota0, a.quota1 != b.quota1, a.quota2 != b.quota2].filter id).length

/-- The member list of a record: entries with nonzero bits [31:18] are skipped; each is a clamp. -/
def readMembers : List Byte → List AgentId × Nat
  | a :: b :: c :: d :: l =>
    let v := leVal [a, b, c, d]
    let (m, k) := readMembers l
    if v ≥ 2 ^ 18 then (m, k + 1) else (BitVec.ofNat 18 v :: m, k)
  | _ => ([], 0)

/-- The agents for which this switch holds a membership pair of a room: those of every live epoch's lists and of one being
committed (R24). Agents that are members without being listed need no pair. -/
def pairAgents (x : Room) : List AgentId :=
  ((x.cur ++ x.old ++ ((x.commit.map (fun c => c.slices)).getD [])).flatMap (fun y => y.members)).eraseDups

/-- (agent, room) pairs that this switch holds for other rooms (R24). -/
def pairsHeld (s : State) (r : RoomId) : Nat :=
  ((s.rooms.rooms.filter (fun x => x.id != r)).map (fun x => (pairAgents x).length)).sum

/-- The pairs of room `r` with the lists of a new map beside those that stay until the older epoch retires (R24). -/
def pairsWith (s : State) (r : RoomId) (l : List Slice) : Nat :=
  (((((roomOf s r).map pairAgents).getD []) ++ l.flatMap (fun y => y.members)).eraseDups).length

/-- Drops the last member of the last slice that has one. -/
def dropMember : List Slice → List Slice
  | [] => []
  | y :: l => if l.any (fun z => !z.members.isEmpty) then y :: dropMember l else { y with members := y.members.dropLast } :: l

/-- Cuts the member lists until the room's pairs fit in 65,536, as far as that is in the new lists' power; returns the entries cut
(R24). -/
def cutMembers (s : State) (r : RoomId) : Nat → List Slice → List Slice × Nat
  | 0, l => (l, 0)
  | k + 1, l =>
    if pairsWith s r l + pairsHeld s r ≤ 65536 then (l, 0)
    else
      let (l', n) := cutMembers s r k (dropMember l)
      (l', n + 1)

/-! ### Sharing domains (R26) -/

/-- Extents of a sharing domain. -/
def domainExts (s : State) (r : RoomId) (d : Byte) : List Nat :=
  (s.maps.exts.filter (fun x => x.room == r && x.domain == d)).map (fun x => x.key)

/-- Lines that a change of a domain must recall (R26): every line, of any extent, that the directory records an agent holding that
leaves, and every line in SB of the domain's extents. -/
def leavingLines (s : State) (r : RoomId) (d : Byte) (agents : List AgentId) : List Nat :=
  let gone := (domainAgents s r d).filter (fun a => !agents.contains a)
  if gone.isEmpty then []
  else
    let exts := domainExts s r d
    (s.dir.entries.filter (fun e => (exts.contains (e.line / 32768) && e.st == .broadcast)
      || e.ptrs.any (fun a => gone.contains a))).map (fun e => e.line)

/-- Sets a sharing domain to a list of agents. A set left without agents, which R26 does not cover, is removed: nobody is then
admitted to its extents. -/
def putDomain (s : State) (r : RoomId) (d : Byte) (agents : List AgentId) : State :=
  let rest := s.rooms.domains.filter (fun x => !(x.room == r && x.idx == d))
  let s := { s with rooms := { s.rooms with domains := if agents.isEmpty then rest else rest ++ [{ room := r, idx := d, agents := agents }] } }
  journal (setGroup s r d agents) 5 (r.toNat + d.toNat * 256)

/-- Queues a change of a domain. -/
def addChange (s : State) (c : DomChange) : State := { s with rooms := { s.rooms with changes := s.rooms.changes ++ [c] } }

/-- Takes effect of a change whose recalls are done; otherwise asks for the recalls that are missing. -/
def settleChange (s : State) (c : DomChange) : State :=
  let lines := leavingLines s c.room c.idx c.agents
  if lines.isEmpty then
    let s := putDomain s c.room c.idx c.agents
    let s := { s with rooms := { s.rooms with changes := s.rooms.changes.erase c } }
    match c.e with
    | some e => if c.isSet then finishDone s e c.agents.length c.skipped else s
    | none => s
  else
    let ask := lines.filter (fun l => (txnOf s l).isNone && !s.dir.recalls.any (fun x => x.1 == l))
    pump (ask.foldl (fun s l => askRecall s l .domainChange) s)

/-! ### Epochs (R33 to R37) -/

/-- The epoch after `e` (R32): modulo 2^16, passing over 0. -/
def nextEpoch (e : Epoch) : Epoch := if e + 1 = 0 then 1 else e + 1

/-- The requests of an epoch of a room that hold a tracker tag at this switch: at the home, at attachment, or issued by its own
agent, each once (R37, R98); an entry of the replay log counts too (R104). -/
def tagsOf (s : State) (r : RoomId) (e : Epoch) : List (AgentId × Tag) :=
  let trk := (s.dir.trk.filter (fun x => x.req.room == r && x.req.epoch == e)).map (fun x => (x.req.agent, x.req.tag))
  let att := (s.fab.att.filter (fun x => x.room == r && x.epoch == e)).map (fun x => (x.agent, x.tag))
  let own := (s.own.sent.filter (fun q => q.room == r && q.epoch == e)).map (fun q => (selfAgent s, q.tag))
  let log := (s.dir.replay.filter (fun x => x.room == r && x.epoch == e)).map (fun x => (x.agent, x.tag))
  (trk ++ att ++ own ++ log).eraseDups

/-- In-flight count of an epoch of a room at this switch (R37). -/
def inFlight (s : State) (r : RoomId) (e : Epoch) : Nat :=
  (tagsOf s r e).length + (s.ledger.entries.filter (fun x => entryRoom x == r && x.epoch == e && descClass x.desc == 0 && x.st != .mirroring
        && x.st != .resultHeld)).length

/-- Route tables of a room keep the live epochs only. -/
def pruneRoutes (s : State) (r : RoomId) : State :=
  { s with fab := { s.fab with routes := s.fab.routes.filter (fun x => x.room != r || liveEpoch s r x.epoch) } }

/-- The switches of a change: those of the old and of the new map, and this one. -/
def commitMembers (s : State) (x : Room) (c : Commit) : List SwitchId :=
  (selfId s :: (x.cur ++ c.slices).map (fun y => y.switch)).eraseDups

/-- Installs a new epoch's map at this switch, beside the live one; a member makes the clamps of its own slice that rest on its own
state. -/
def installEpoch (s : State) (r : RoomId) (c : Commit) : State :=
  let c := if c.e.isSome then c else { c with
    slices := c.slices.map fun y => if y.switch == selfId s then clampSlice s r y else y }
  let s := updRoom s r fun x => { x with commit := some { c with acked := (selfId s :: c.acked).eraseDups } }
  let s := { s with fab := { s.fab with
    routes := s.fab.routes ++ [{ room := r, epoch := c.epoch, paths := c.paths, twins := c.twins }] } }
  routeUnrouted (journal s 1 (r.toNat + c.epoch.toNat * 256))

/-- The new epoch becomes current (step 3); a room's first one zeroes its counters (R445). Packets under the old one are still routed by its map. -/
def declareEpoch (s : State) (r : RoomId) (c : Commit) : State :=
  let first := currentEpoch s r == 0
  let s := if first then { s with rooms := { s.rooms with freed := s.rooms.freed.filter (fun x => x.id != r) } } else s
  let s := if first then updRoom s r fun x => { x with lateMoves := 0, demoted := 0, raw := 0, misses := 0, refused := 0 } else s
  noteRoutes (updRoom s r fun x => { x with
    older := if x.current = 0 then none else some x.current
    old := x.cur
    current := c.epoch
    cur := c.slices
    currentAt := s.time.now
    drained := false
    commit := some { c with step := 3, at_ := s.time.now, drained := [] } })

/-- What leaves the map at step 5: the older epoch, and agents that are no longer members, from every domain of the
room, with their lines recalled (R24). -/
def dropOlder (s : State) (r : RoomId) (e : Option Nat) : State :=
  let s := parkClusters (updRoom s r fun x => { x with older := none, old := [] })
  let s := pruneRoutes s r
  (s.rooms.domains.filter (fun d => d.room == r)).foldl (fun s d =>
    let stay := d.agents.filter (fun a => isMember s a r)
    if stay.length = d.agents.length then s
    else addChange s { e := e, isSet := false, room := r, idx := d.idx, agents := stay, skipped := 0 }) s

/-- Starts a commit (step 1): the new map of all staged slices, those staged while it waited among them, its clamps made against what
other rooms hold now, counted, mirrored and sent to the members. -/
def startCommit (s : State) (r : RoomId) (c : Commit) : State :=
  match roomOf s r, c.e with
  | some x, some e =>
    let kept := x.cur.filter (fun y => !x.staged.any (fun z => z.1.switch == y.switch))
    let fresh := (x.staged.filter (fun z => !z.2)).map (fun z => z.1)
    let held := kept.map (clampHeld s r) ++ fresh.map (clampSlice s r)
    let k := ((kept ++ fresh).zip held).foldl (fun n p => n + sliceDiff p.1 p.2) 0
    let (slices, cut) := cutMembers s r ((held.flatMap (fun y => y.members)).length) held
    let s := match ledgerEntry s e with
      | some en =>
        let s := recordClamps s en (k + cut)
        recordApplied s en (nextEpoch x.current).toNat (clampsOf s e)
      | none => s
    let c := { c with epoch := nextEpoch x.current, slices := slices, step := 1, backup := x.staged, at_ := s.time.now
                      acked := [], drained := [] }
    let s := updRoom s r fun x => { x with staged := [], waiting := none }
    let s := installEpoch s r c
    ((commitMembers s x c).filter (· != selfId s)).foldl (fun s m => say s (.event 2 m.toNat)) s
  | _, _ => s

/-- A COMPOSE completes: its result is the new epoch, with its count of clamps (R32). -/
def finishCompose (s : State) (e : Option Nat) (v : Nat) : State :=
  match e with
  | some n => finishDone s n v (clampsOf s n)
  | none => s

/-- Step 5: the commit ends; a map without slices ends the room; a commit that waits starts. -/
def endCommit (s : State) (r : RoomId) (c : Commit) : State :=
  let s := finishCompose s c.e c.epoch.toNat
  let s := updRoom s r fun x => { x with commit := none }
  if c.slices.isEmpty then
    let left := (s.rooms.rooms.filter (fun x => x.id == r && (x.waiting.isSome || !x.staged.isEmpty))).map fun x =>
      ({ id := r, holder := x.holder, staged := x.staged, waiting := none } : Room)
    let w := (roomOf s r).bind (fun x => x.waiting)
    let s := dropRoom s r
    let s := { s with
      rooms := { s.rooms with rooms := s.rooms.rooms ++ left }
      fab := { s.fab with routes := s.fab.routes.filter (fun x => x.room != r) } }
    match w with
    | some w => startCommit s r w
    | none => s
  else match roomOf s r with
    | some x => match x.waiting with
      | some w => startCommit s r w
      | none => s
    | none => s

/-- Advances a commit at the map holder as far as the answers so far allow. -/
def advanceCommit (s : State) (r : RoomId) : State :=
  match roomOf s r with
  | none => s
  | some x =>
    match x.commit with
    | none => s
    | some c =>
      if x.holder != selfId s then s
      else if c.step = 1 then
        if (commitMembers s x c).all (fun m => c.acked.contains m) then
          let members := (commitMembers s x c).filter (· != selfId s)
          let s := declareEpoch s r c
          let s := members.foldl (fun s m => say s (.event 3 m.toNat)) s
          if x.current = 0 then
            match roomOf s r with
            | some y => match y.commit with
              | some c => endCommit s r c
              | none => s
            | none => s
          else s
        else s
      else if c.step = 3 then
        if ((selfId s :: (x.old ++ x.cur).map (fun y => y.switch)).eraseDups).all (fun m => c.drained.contains m) then
          let s := updRoom s r fun x => { x with commit := some { c with step := 5, at_ := s.time.now } }
          let s := dropOlder s r c.e
          ((x.old ++ x.cur).map (fun y => y.switch)).eraseDups.foldl
            (fun s m => if m == selfId s then s else say s (.event 4 m.toNat)) s
        else s
      else s

/-- Ends the commits at step 5 whose recalls are done. -/
def settleCommits (s : State) : State :=
  s.rooms.rooms.foldl (fun s x => match x.commit with
    | some c =>
      if c.step = 5 ∧ x.holder = selfId s ∧ ¬ s.rooms.changes.any (fun d => d.room == x.id && !d.isSet) then endCommit s x.id c
      else s
    | none => s) s

/-- After an event that may end a drain: revocations, domain changes and commits that wait for it. -/
def settle (s : State) : State :=
  let s := s.rooms.changes.foldl settleChange s
  settleMigrates (settleCommits (settleRevokes s))

/-- A commit that a member switch refused (R30): nothing is installed anywhere, for the members that did install it are told so; the
slices stay staged, the COMPOSE ends. -/
def refuseCommit (s : State) (r : RoomId) (c : Commit) : State :=
  let told := (c.acked.filter (· != selfId s)).map fun m => Out.event 12 m.toNat
  let s := { s with out := s.out ++ told }
  let s := updRoom s r fun x => { x with commit := none, staged := c.backup ++ x.staged }
  let s := pruneRoutes s r
  let s := match c.e with
    | some e =>
      let gone := fun (x : BitVec 12 × BitVec 32 × Word × Word) => match ledgerEntry s e with
        | some en => x.1 == en.ring && x.2.1 == descSeq en.desc
        | none => false
      finishStatus { s with ledger := { s.ledger with applied := s.ledger.applied.filter (fun x => !gone x) } } e 0x03 0 (clampsOf s e)
    | none => s
  match roomOf s r with
  | some x => match x.waiting with
    | some w => startCommit s r w
    | none => s
  | none => s

end Sys2Proof.Machine
end

