-- ==== Sys2Proof/Machine/RoomCommands.lean ====
section
/-!
DEFINITION. Machine/RoomCommands.lean: COMPOSE and the messages of an epoch change, binding and revocation, sharing domains,
room limits and tier modes, LINE_CLEAR, snapshots, SYNC_BIND and TILE_FORMAT.
-/

namespace Sys2Proof.Machine

/-! ### COMPOSE and epochs -/

/-- A map change waits while the journal is full (R349). -/
def withMap (s : State) (e op : Nat) (f : State → Entry → State) : State :=
  withEntry s e op fun s en =>
    if journalFull s then
      { s with ledger := { s.ledger with
        journalWait := if s.ledger.journalWait.contains e then s.ledger.journalWait else s.ledger.journalWait ++ [e] } }
    else f { s with ledger := { s.ledger with journalWait := s.ledger.journalWait.filter (· != e) } } en

/-- Stages a slice (R31): replaces an earlier stage of the same switch. -/
def stageSlice (s : State) (r : RoomId) (y : Slice) (release : Bool) : State :=
  updRoom s r fun x => { x with staged := x.staged.filter (fun z => z.1.switch != y.switch) ++ [(y, release)] }

/-- COMPOSE on an entry that runs. -/
def composeRun (s : State) (en : Entry) (x : Cells) (paths : List PathSet) : State :=
  let e := en.n
  let r : RoomId := BitVec.ofNat 8 (descField en.desc 16 1)
  let commit := descField en.desc 17 1 % 2 == 1
  let release := descField en.desc 17 1 / 2 % 2 == 1
  let sw : SwitchId := BitVec.ofNat 16 (descField en.desc 18 2)
  let foreign : Bool := match roomOf s r with
    | some y => y.holder != selfId s
    | none => false
  let waits : Bool := match roomOf s r with
    | some y => commit && y.waiting.isSome
    | none => false
  if entryRoom en != 0 || foreign then finishStatus s e 0x03 0 0
  else if en.replayed && (appliedOf s en).isSome then
    match appliedOf s en with
    | some v => finishDone s e v.1.toNat v.2.toNat
    | none => s
  else if waits then s
  else
    let rec_ := listRead s en x (descWord en.desc 20) 256
    let cnt := if rec_.status = 0x00 then min 65536 (leAt rec_.bytes 96 4) else 0
    let mem := listRead s en x (BitVec.ofNat 64 (leAt rec_.bytes 88 8 / 4 * 4)) (4 * cnt)
    if rec_.status ≠ 0x00 then finishStatus s e rec_.status 0 0
    else if !release && mem.status != 0x00 then finishStatus s e mem.status 0 0
    else
      let (members, skipped) := if release then ([], 0) else readMembers mem.bytes
      let k := skipped + (if leAt rec_.bytes 96 4 > 65536 then 1 else 0) + (if leAt rec_.bytes 6 2 ≠ 0 then 1 else 0)
        + (if leAt rec_.bytes 88 8 % 4 ≠ 0 then 1 else 0)
      let s := match roomOf s r with
        | some _ => s
        | none => { s with rooms := { s.rooms with rooms := s.rooms.rooms ++ [{ id := r, holder := selfId s }] } }
      let raw := readSlice sw rec_.bytes members.eraseDups
      let y := clampSlice s r raw
      let s := if release then s else recordClamps s en (k + sliceDiff raw y)
      let s := stageSlice s r y release
      if !commit then finishDone s e 0 (clampsOf s e)
      else
        let c : Commit := { e := some e, epoch := 0, slices := [], paths := paths
                            twins := if twinPresent s then [(selfId s, twinId s)] else [] }
        match roomOf s r with
        | some z =>
          if z.commit.isSome || z.older.isSome then updRoom s r fun z => { z with waiting := some c }
          else advanceCommit (startCommit s r c) r
        | none => s

/-- COMPOSE (R29 to R32, R34, R37). -/
def execCompose (e : Nat) (x : Cells) (paths : List PathSet) (s : State) : Host.Outcome State Fault Refusal :=
  .next (settle (withMap s e 0x20 fun s en => composeRun s en x paths))

/-- A member installs a map and acknowledges. -/
def memberInstall (s : State) (m : EpochMap) : State :=
  say (installEpoch s m.room { e := none, epoch := m.epoch, slices := m.slices, paths := m.paths, twins := m.twins })
    (.event 5 m.holder.toNat)

/-- EPOCH_INSTALL (R30, R37): a member installs the map and acknowledges; the map of an epoch that it has installed already
declares that epoch current (step 3). The room's rules come with the map, and a map of a live epoch changes nothing else (R92,
R157). -/
def execEpochInstall (m : EpochMap) (s : State) : Host.Outcome State Fault Refusal :=
  .next (
    if !isRunning s || m.holder == selfId s then s
    else match roomOf s m.room with
      | none =>
        let s := { s with rooms := { s.rooms with rooms := s.rooms.rooms ++ [{ id := m.room, holder := m.holder }] } }
        takeRules (memberInstall s m) m.room m.rules
      | some x =>
        if x.holder != m.holder then say s (.event 6 m.holder.toNat)
        else
          let s := match x.commit with
            | some c =>
              if c.epoch == m.epoch && c.step == 1 then
                let s := declareEpoch s m.room c
                if x.current = 0 then updRoom s m.room fun y => { y with commit := none } else s
              else s
            | none => if m.epoch == x.current || x.older == some m.epoch then s else memberInstall s m
          takeRules s m.room m.rules)

/-- A member takes back an epoch that it installed, for the map holder's commit was refused (R30). -/
def withdrawEpoch (s : State) (r : RoomId) : State :=
  let s := pruneRoutes (updRoom s r fun x => { x with commit := none }) r
  if currentEpoch s r = 0 then dropRoom s r else s

/-- EPOCH_ACK (R30, R37): epoch 0 is a member's refusal; at a member, from the map holder, it says that the commit was refused. -/
def execEpochAck (room : RoomId) (epoch : Epoch) (member : SwitchId) (s : State) : Host.Outcome State Fault Refusal :=
  .next (match roomOf s room with
    | none => s
    | some x => match x.commit with
      | none => s
      | some c =>
        if c.step != 1 || !isRunning s then s
        else if x.holder != selfId s then (if epoch = 0 && member == x.holder then withdrawEpoch s room else s)
        else if epoch = 0 then settle (refuseCommit s room c)
        else if epoch = c.epoch then
          settle (advanceCommit (updRoom s room fun x => { x with commit := some { c with acked := (member :: c.acked).eraseDups } }) room)
        else s)

/-- DRAIN_CHECK (R37, step 4): the in-flight count of the older epoch is zero and T_dead has passed since step 3. -/
def execDrainCheck (room : RoomId) (s : State) : Host.Outcome State Fault Refusal :=
  .next (match roomOf s room with
    | none => s
    | some x => match x.older with
      | none => s
      | some old =>
        if x.drained || inFlight s room old ≠ 0 || decide (s.time.now < x.currentAt + tDead s) || !isRunning s then s
        else
          let s := updRoom s room fun x => { x with drained := true }
          if x.holder = selfId s then
            let s := updRoom s room fun x => { x with
              commit := x.commit.map fun c => { c with drained := (selfId s :: c.drained).eraseDups } }
            settle (advanceCommit s room)
          else say s (.event 7 x.holder.toNat))

/-- DRAIN_REPORT (R37): a report reaches the map holder; at a member, the holder's own report retires the older epoch. -/
def execDrainReport (room : RoomId) (epoch : Epoch) (member : SwitchId) (s : State) : Host.Outcome State Fault Refusal :=
  .next (match roomOf s room with
    | none => s
    | some x =>
      if x.older != some epoch || !isRunning s then s
      else if x.holder = selfId s then
        let s := updRoom s room fun x => { x with
          commit := x.commit.map fun c => { c with drained := (member :: c.drained).eraseDups } }
        settle (advanceCommit s room)
      else if member = x.holder then
        let s := dropOlder s room none
        let s := updRoom s room fun x => { x with commit := none }
        let s := if x.cur.isEmpty then dropRoom s room else s
        settle s
      else s)

/-- EPOCH_MEMBER_TIMEOUT (R37): a member past its bound is left out of the change. -/
def execEpochMemberTimeout (room : RoomId) (member : SwitchId) (s : State) : Host.Outcome State Fault Refusal :=
  .next (match roomOf s room with
    | none => s
    | some x => match x.commit with
      | none => s
      | some c =>
        if x.holder != selfId s || !isRunning s then s
        else if c.step == 1 && decide (c.at_ + 1000000 ≤ s.time.now) then
          settle (advanceCommit (updRoom s room fun x => { x with commit := some { c with acked := (member :: c.acked).eraseDups } }) room)
        else if c.step == 3 && decide (c.at_ + tDead s + 2000000 ≤ s.time.now) then
          settle (advanceCommit (updRoom s room fun x => { x with commit := some { c with drained := (member :: c.drained).eraseDups } }) room)
        else s)

/-! ### Binding and revocation -/

/-- Binds one extent, if it is Free and its room has quota and space for it (R39, R155, R156). -/
def bindExtent (s : State) (r : RoomId) (d : BitVec 512) (key : Nat) : State × Bool :=
  let place := descField d 30 1
  let surv := place / 16 % 4
  let tier := if place % 4 = 3 then
      (([0, 1, 2].filter (survivalAllows surv)).find? (fun t => decide (quotaFree s r t ≥ 32))).getD 3
    else place % 4
  if key % 2 ^ 27 = 0 ∨ (extentOf s key).isSome ∨ !isHome s (BitVec.ofNat 16 (key / 2 ^ 27)) ∨ tier > 2 ∨ quotaFree s r tier < 32 then (s, false)
  else match placeOn s r tier 32 with
    | none => (s, false)
    | some u =>
      let form := place / 8 % 2 == 1
      let x : Extent := { key := key, room := r, domain := BitVec.ofNat 8 (descField d 29 1), survival := surv,
                          lineAddressed := form, pin := place / 4 % 2 == 1, revert := descField d 31 1 % 2 == 1 }
      let ts := (List.range 32).map fun i =>
        ({ key := key * 32 + i, res := { tier := tier, unit := u, lineAddressed := form && tier == 1 } } : Tile)
      (journal { s with maps := { s.maps with exts := s.maps.exts ++ [x], tiles := s.maps.tiles ++ ts } } 2 key, true)

/-- EXTENT_BIND on an entry that runs. -/
def bindRun (s : State) (en : Entry) : State :=
  let r : RoomId := BitVec.ofNat 8 (descField en.desc 28 1)
  let g := descWord en.desc 16
  if !fromRoom en r || !isHome s (homeOf g) then finishStatus s en.n 0x03 0 0
  else
    let n := descField en.desc 24 4
    let (s, k) := (List.range n).foldl (fun (s, k) i =>
      let (s, ok) := bindExtent s r en.desc (g.toNat / 2 ^ 21 + i)
      (s, if ok then k + 1 else k)) (s, 0)
    finishDone s en.n k (n - k)

/-- EXTENT_BIND (R39, R40, R155, R156). -/
def execExtentBind (e : Nat) (s : State) : Host.Outcome State Fault Refusal := .next (withMap s e 0x21 bindRun)

/-- Bytes of a query record and of a partial record of shape (d ÷ 32, h_kv, g) (R280, R281). -/
def queryBytes (d : BitVec 512) : Nat := 64 + 4 * (descField d 37 1 * descField d 38 1) * (32 * descField d 36 1)
def partialBytes (d : BitVec 512) : Nat :=
  (16 + descField d 37 1 * descField d 38 1 * (8 + 4 * (32 * descField d 36 1)) + 63) / 64 * 64
def mergeOutBytes (d : BitVec 512) : Nat :=
  let n := descField d 37 1 * descField d 38 1 * (32 * descField d 36 1)
  if descField d 35 1 = 0 then partialBytes d
  else (16 + (if descField d 35 1 = 1 then 4 * n else 2 * n) + 63) / 64 * 64

/-- Width in bytes of an element of a type code, at least 1 (Table 10-10). -/
def typeBytes (t : Nat) : Nat := if t = 0 ∨ t = 6 then 4 else if t = 1 ∨ t = 2 then 2 else 1

/-- The address ranges that a descriptor's own fields give (R42). -/
def descRanges (d : BitVec 512) : List (Word × Nat) :=
  match descOp d with
  | 0x20 => [(descWord d 20, 256)]
  | 0x21 => [(descWord d 16, 2 ^ 21 * descField d 24 4)]
  | 0x22 => [(descWord d 16, 2 ^ 21 * descField d 24 4)]
  | 0x23 => [(descWord d 16, 4 * descField d 24 4)]
  | 0x25 => [(descWord d 16, 64 * descField d 24 4)]
  | 0x26 => [(descWord d 16, 2 ^ 21 * descField d 24 4)]
  | 0x27 => [(descWord d 16, 2 ^ 21 * descField d 24 4)]
  | 0x2B => [(descWord d 16, 65536 * descField d 24 4)]
  | 0x2C => [(descWord d 16, 32 * descField d 24 4)]
  | 0x2D => [(descWord d 16, 65536 * descField d 24 4)]
  | 0x41 => [(descWord d 24, descField d 32 8), (descWord d 40, descField d 48 8)]
  | 0x49 => [(descWord d 32, if descWord d 32 = 0 then 0 else descField d 24 8 * typeBytes (descField d 19 1))]
  | 0x60 => [(descWord d 16, descField d 32 2 * queryBytes d), (descWord d 24, descField d 32 2 * partialBytes d)]
  | 0x61 => [(descWord d 16, 8 * descField d 34 1), (descWord d 24, descField d 32 2 * mergeOutBytes d)]
  | 0x62 =>
    let n := descField d 40 4
    let sz := descField d 44 2
    [(descWord d 24, n * sz)] ++
      (if descField d 46 1 = 2 then [(descWord d 16, (n - 1) * descField d 32 8 + sz)]
       else [(descWord d 32, n * (if descField d 46 1 = 0 then 4 else 8))])
  | 0x63 => [(descWord d 24, descField d 48 4 * descField d 52 2 * typeBytes (descField d 56 1)),
      (descWord d 40, 4 * (descField d 48 4 + 1))]
  | 0x71 => [(descWord d 16, 96 * descField d 24 4)]
  | 0x72 => [(descWord d 16, 32 * descField d 32 4), (descWord d 24, 16 * descField d 32 4)]
  | 0x73 => [(descWord d 16, descField d 24 4)]
  | 0x75 => [(descWord d 16, 16 * descField d 24 4), (descWord d 40, descField d 48 8)]
  | 0x80 => [(descWord d 24, 4941)]
  | 0x83 => [(descWord d 16, descField d 24 4)]
  | 0x91 => [(descWord d 32, 64 * descField d 24 4)]
  | 0x92 => [(descWord d 16, 65536 * descField d 24 4)]
  | _ => []

/-- Whether a descriptor's extent list includes an extent (R42). -/
def listsExtent (d : BitVec 512) (key : Nat) : Bool :=
  (descRanges d).any fun r => decide (r.2 > 0) && decide (extKey r.1 ≤ key) && decide (key * 2 ^ 21 < r.1.toNat + r.2)

/-- Requests that hold tracker entries for an extent. -/
def trackedOn (s : State) (key : Nat) : List (AgentId × Tag) :=
  (s.dir.trk.filter (fun x => extKey x.req.gfa == key)).map (fun x => (x.req.agent, x.req.tag))

/-- Moves of an extent's tiles that a revocation aborts (R167). -/
def abortMoves (s : State) (key : Nat) : State :=
  let hit := (movers s).filter fun m => m.key / 32 == key && (m.mig == .booked || m.mig == .moving)
  let s := hit.foldl (fun s m => endMove s m (idle m)) s
  hit.foldl (fun s m => match m.work with
    | some e => endByDrain s e m.key
    | none => s) s

/-- t_D for one Bound extent (R41 to R43). -/
def drainExtent (s : State) (key : Nat) : State :=
  let s := abortMoves s key
  let lines := (s.dir.entries.filter (fun x => x.line / 32768 == key)).map (fun x => x.line)
  let held := cachedLines s key
  let descs := (s.ledger.entries.filter (fun x => descClass x.desc == 0 && x.st != .mirroring && x.st != .resultHeld
    && listsExtent x.desc key)).map (fun x => x.n)
  let reqs := trackedOn s key
  let s := updExtent s key fun x => { x with
    st := .draining, tD := s.time.now, drain0 := reqs.length + descs.length + held, reqs := reqs, descs := descs }
  lines.foldl (fun s l => askRecall s l .revocation) (journal s 3 key)

/-- EXTENT_REVOKE on an entry that runs. A Free extent counts as revoked (R46), and so does extent index 0, which is always Free
(R22); what a range names past the home's last extent counts as skipped. -/
def revokeRun (s : State) (en : Entry) : State :=
  if !isHome s (homeOf (descWord en.desc 16)) then finishStatus s en.n 0x03 0 0
  else if (match ledgerEntry s en.n with
      | some y => y.pendingWork != 0
      | none => false) then s
  else
    let keys := revokeKeys en.desc
    let mine := keys.filter fun k => isHome s (BitVec.ofNat 16 (k / 2 ^ 27)) && (match extentOf s k with
      | some x => entryRoom en == 0 || x.room == entryRoom en
      | none => true)
    let bound := mine.filter fun k => match extentOf s k with
      | some x => x.st == .bound
      | none => false
    let s := bound.foldl drainExtent s
    let all := (mine.map fun k => match extentOf s k with
      | some x => if x.st == .draining then x.drain0 else 0
      | none => 0).sum
    let s := updLedger s en.n fun x => { x with
      doneCount := mine.length, skipCount := keys.length - mine.length, pendingWork := 1, drain0 := all }
    pump s

/-- EXTENT_REVOKE (R41 to R46). -/
def execExtentRevoke (e : Nat) (s : State) : Host.Outcome State Fault Refusal := .next (settle (withMap s e 0x22 revokeRun))

/-- The agents of a list: members that it does not name twice; and the number of entries skipped (R39). -/
def readAgents (s : State) (r : RoomId) : Nat → List Byte → List AgentId → List AgentId
  | 0, _, acc => acc
  | k + 1, l, acc =>
    let a : AgentId := BitVec.ofNat 18 (leAt l 0 4)
    readAgents s r k (l.drop 4) (if isMember s a r && !acc.contains a then acc ++ [a] else acc)

/-- DOMAIN_SET on an entry that runs. -/
def domainRun (s : State) (en : Entry) (x : Cells) : State :=
  let r : RoomId := BitVec.ofNat 8 (descField en.desc 28 1)
  let n := descField en.desc 24 4
  if !fromRoom en r then finishStatus s en.n 0x03 0 0
  else if s.rooms.changes.any (fun c => c.e == some en.n) then s
  else
    let got := listRead s en x (descWord en.desc 16) (4 * n)
    if got.status ≠ 0x00 then finishStatus s en.n got.status 0 0
    else
      let agents := readAgents s r n got.bytes []
      addChange s { e := some en.n, isSet := true, room := r, idx := BitVec.ofNat 8 (descField en.desc 29 1), agents := agents,
                    skipped := n - agents.length }

/-- DOMAIN_SET (R26, R39). -/
def execDomainSet (e : Nat) (x : Cells) (s : State) : Host.Outcome State Fault Refusal :=
  .next (settle (withMap s e 0x23 fun s en => domainRun s en x))

/-! ### Room limits and modes -/

/-- The reserved rate of a room lowered until every port's reserved rates add to at most 90 % of the port rate (Table 4-6). -/
def limitRate (s : State) (r : RoomId) (v : Nat) : Nat :=
  let ports := (s.fab.attach.map (fun a => a.port)).eraseDups
  ports.foldl (fun v p =>
    let here := s.fab.attach.filter (fun a => a.port == p)
    let mine := (here.filter (fun a => isMember s a.agent r)).length
    let others := ((s.rooms.rooms.filter (fun x => x.id != r)).map (fun x =>
      x.rate * (here.filter (fun a => isMember s a.agent x.id)).length)).sum
    if mine = 0 then v else min v ((portRate s p * 8 * 9 / 10 - others) / mine)) v

/-- The map holder sends a room's new rules to the other member switches (R92, R157). -/
def sendRules (s : State) (r : RoomId) : State :=
  match roomOf s r with
  | some x => (((x.old ++ x.cur).map (fun y => y.switch)).eraseDups.filter (· != selfId s)).foldl
      (fun s m => say s (.event 13 m.toNat)) s
  | none => s

/-- ROOM_LIMIT on an entry that runs. -/
def limitRun (s : State) (en : Entry) : State :=
  let r : RoomId := BitVec.ofNat 8 (descField en.desc 16 1)
  if entryRoom en != 0 || !isMapHolder s r then finishStatus s en.n 0x03 0 0
  else
    let v := limitRate s r (descField en.desc 20 4)
    let s := clampLate s en.n 20 4 v
    let s := updRoom s r fun x => { x with rate := v, burst := descField en.desc 24 4, beRate := descField en.desc 28 4 }
    finishDone (sendRules (journal s 6 r.toNat) r) en.n 0 (clampsOf s en.n)

/-- ROOM_LIMIT (R92). -/
def execRoomLimit (e : Nat) (s : State) : Host.Outcome State Fault Refusal := .next (withMap s e 0x24 limitRun)

/-- ROOM_TIER on an entry that runs. -/
def tierRun (s : State) (en : Entry) : State :=
  let r : RoomId := BitVec.ofNat 8 (descField en.desc 16 1)
  if entryRoom en != 0 || !isMapHolder s r then finishStatus s en.n 0x03 0 0
  else
    let d := en.desc
    let s := updRoom s r fun x => { x with
      unified := descField d 17 1 == 1
      thr := descField d 18 1
      interval := descField d 20 4
      hi0 := descField d 24 1
      lo0 := descField d 25 1
      hi1 := descField d 26 1
      lo1 := descField d 27 1 }
    finishDone (sendRules (journal s 7 r.toNat) r) en.n 0 (clampsOf s en.n)

/-- ROOM_TIER (R157). -/
def execRoomTier (e : Nat) (s : State) : Host.Outcome State Fault Refusal := .next (withMap s e 0x2A tierRun)

/-! ### LINE_CLEAR -/

/-- Clears one line if it is owner-lost. -/
def clearLine (act : Nat) (p : State × Nat) (line : Nat) : State × Nat :=
  match markOf p.1 line with
  | some .ownerLost =>
    if act = 1 then (poolWriteLine p.1 line (List.replicate 64 0), p.2 + 1)
    else (markLine p.1 line (some .poisoned), p.2 + 1)
  | _ => p

/-- LINE_CLEAR on an entry that runs: the next chunk of at most one tile (R36, R128). Its tally holds the lines cleared. -/
def lineClearRun (s : State) (en : Entry) : State :=
  let g := descWord en.desc 16
  let n := descField en.desc 24 4
  let done := en.position.toNat / 64 - (if en.position = 0 then 0 else lineKey g)
  let first := lineKey g + done
  let len := min (n - done) (1024 - first % 1024)
  match extentOf s (extKey g) with
  | none => finishStatus s en.n 0x03 0 0
  | some x =>
    if !isHome s (homeOf g) || !fromRoom en x.room then finishStatus s en.n 0x03 0 0
    else if x.st == .draining then finishStatus s en.n 0x06 (64 * first) 0
    else if writesHeld s first then s
    else
      let (s, k) := ((List.range len).map (fun i => first + i)).foldl (clearLine (descField en.desc 28 1)) (s, en.tally.headD 0)
      let s := updLedger s en.n fun y => { y with
        position := BitVec.ofNat 64 (64 * (first + len)), tally := [k], progress := 10000 * (done + len) / max 1 n }
      if done + len < n then s else finishDone s en.n k (n - k)

/-- LINE_CLEAR (R128). -/
def execLineClear (e : Nat) (s : State) : Host.Outcome State Fault Refusal := .next (withEntry s e 0x25 lineClearRun)

/-! ### Snapshots -/

/-- Keys of the extents that a snapshot descriptor names. -/
def snapKeys (d : BitVec 512) : List Nat := (List.range (descField d 24 4)).map fun i => descField d 16 8 / 2 ^ 21 + i

/-- Covered and skipped extents as bytes 24 to 31 give them (Table 6-6). -/
def coverWord (c k : Nat) : Nat := c + k * 2 ^ 32

/-- SNAP_CUT on an entry that runs. -/
def snapCutRun (s : State) (en : Entry) : State :=
  if !isHome s (homeOf (descWord en.desc 16)) then finishStatus s en.n 0x03 0 0
  else if en.replayed && (appliedOf s en).isSome then
    match appliedOf s en with
    | some v => finishDone s en.n v.1.toNat v.2.toNat
    | none => s
  else
    let keys := snapKeys en.desc
    let cov := keys.filter fun k => match extentOf s k with
      | some x => x.st == .bound && (entryRoom en == 0 || x.room == entryRoom en)
      | none => false
    let cut := s.maps.nextCut
    let s := reclaimVersions { s with maps := { s.maps with
      versions := s.maps.versions ++ [{ cut := cut, tC := stamp s 17, exts := cov }]
      nextCut := if cut + 1 = 0 then 1 else cut + 1 } }
    let w := coverWord cov.length (keys.length - cov.length)
    finishDone (recordApplied (journal s 8 cut.toNat) en cut.toNat w) en.n cut.toNat w

/-- SNAP_CUT (R135 to R139). -/
def execSnapCut (e : Nat) (s : State) : Host.Outcome State Fault Refusal := .next (withMap s e 0x26 snapCutRun)

/-- A handle number that is neither open nor at rest (R143). -/
def freeHandle (s : State) : Option (BitVec 16) :=
  let used := (s.maps.handles.map (fun h => h.h)) ++
    (s.maps.restHandles.filter (fun x => decide (x.2 > s.time.now))).map (fun x => x.1)
  ((List.range (used.length + 1)).find? (fun k => !used.contains (BitVec.ofNat 16 k))).map (BitVec.ofNat 16)

/-- Bytes 16 to 23 of a SNAP_OPEN completion. -/
def handleWord (h : BitVec 16) (cut : BitVec 32) : Nat := h.toNat + cut.toNat * 2 ^ 16

/-- SNAP_OPEN on an entry that runs. -/
def snapOpenRun (s : State) (en : Entry) : State :=
  let d := en.desc
  let life := descField d 32 4 * 1000000
  let keys := snapKeys d
  if !isHome s (homeOf (descWord d 16)) then finishStatus s en.n 0x03 0 0
  else if descField d 38 1 % 2 = 1 then
    let h : BitVec 16 := BitVec.ofNat 16 (descField d 36 2)
    match s.maps.handles.find? (fun y => y.h == h && y.room == entryRoom en) with
    | none => finishStatus s en.n 0x03 0 0
    | some y =>
      let s := { s with maps := { s.maps with
        handles := mapIf (fun z => z.h == h) (fun z => { z with until_ := s.time.now + life }) s.maps.handles } }
      finishDone s en.n (handleWord h y.cut) (coverWord y.exts.length 0)
  else
    let v : Option Version :=
      if descField d 28 4 = 0 then (match keys with
        | k :: _ => newestVersion s k
        | [] => none)
      else versionOf s (BitVec.ofNat 32 (descField d 28 4))
    match v with
    | none => finishStatus s en.n 0x03 0 0
    | some v =>
      let cov := keys.filter (fun k => v.exts.contains k)
      if cov.isEmpty then finishStatus s en.n 0x03 0 0
      else match freeHandle s with
        | none => s
        | some h =>
          let s := { s with maps := { s.maps with
            handles := s.maps.handles ++ [{ h := h, room := entryRoom en, cut := v.cut, exts := cov, until_ := s.time.now + life }]
            restHandles := s.maps.restHandles.filter (fun x => decide (x.2 > s.time.now)) } }
          finishDone (journal s 9 h.toNat) en.n (handleWord h v.cut) (coverWord cov.length (keys.length - cov.length))

/-- SNAP_OPEN (R142). -/
def execSnapOpen (e : Nat) (s : State) : Host.Outcome State Fault Refusal := .next (withMap s e 0x27 snapOpenRun)

/-- Closes a handle: its number rests for W, versions that end are reclaimed (R143, R144). -/
def closeHandle (s : State) (h : BitVec 16) : State :=
  reclaimVersions { s with maps := { s.maps with
    handles := s.maps.handles.filter (fun y => y.h != h)
    restHandles := s.maps.restHandles ++ [(h, s.time.now + dedupeWindow s)] } }

/-- SNAP_CLOSE (R143, R144): a handle that is not open, or not of the room, is left alone. -/
def execSnapClose (e : Nat) (s : State) : Host.Outcome State Fault Refusal :=
  .next (withMap s e 0x28 fun s en =>
    let h : BitVec 16 := BitVec.ofNat 16 (descField en.desc 36 2)
    let s := if s.maps.handles.any (fun y => y.h == h && y.room == entryRoom en) then closeHandle (journal s 10 h.toNat) h else s
    finishDone s en.n 0 0)

/-- HANDLE_EXPIRY (R143). -/
def execHandleExpiry (handle : BitVec 16) (s : State) : Host.Outcome State Fault Refusal :=
  .next (if s.maps.handles.any (fun y => y.h == handle && decide (y.until_ ≤ s.time.now)) then
    closeHandle (journal s 10 handle.toNat) handle else s)

/-! ### Refusals by an opcode's own rule (R4, R34, R138, R141, R142, Table 9-10) -/

/-- Accepted descriptors of an opcode that meet `p` and have no result yet. -/
def openWork (s : State) (op : Nat) (p : BitVec 512 → Bool) : Nat :=
  (s.ledger.entries.filter (fun x => descOp x.desc == op && x.result.isNone && p x.desc)).length

/-- The reason for which the test refuses a descriptor by its opcode's own rule, each counted with what was accepted before it and
is still to come: COMPOSE while a commit of the room waits, SNAP_CUT past 16 versions of an extent or in an overdraft, SNAP_OPEN
without a handle, COLL_OPEN past 1,024 contexts or without its clusters, CARAVAN_OPEN past 256 caravans. -/
def ownRefusal (s : State) (d : BitVec 512) : Option Nat :=
  match descOp d with
  | 0x20 =>
    let r := descField d 16 1
    let same := fun (x : BitVec 512) => descField x 16 1 == r && descField x 17 1 % 2 == 1
    if same d && decide (openWork s 0x20 same ≥ 2) then some 0x08 else none
  | 0x26 =>
    let cov := (snapKeys d).filter fun k => match extentOf s k with
      | some x => x.st == .bound && (descRoom d == 0 || x.room == descRoom d)
      | none => false
    let cuts := fun (k : Nat) => (s.maps.versions.filter (fun v => v.exts.contains k)).length +
      openWork s 0x26 (fun x => (snapKeys x).contains k)
    if cov.any (fun k => decide (cuts k + 1 > 16)) then some 0x09
    else if cov.any (fun k => match extentOf s k with
        | some x => decide (overdraft s x.room > 0)
        | none => false) then some 0x0A
    else none
  | 0x27 =>
    let opens := openWork s 0x27 (fun x => descField x 38 1 % 2 == 0)
    if descField d 38 1 % 2 = 0 ∧ s.maps.handles.length + s.maps.restHandles.length + opens ≥ 65536 then some 0x0B else none
  | 0x48 =>
    if s.coll.ctxs.length + openWork s 0x48 (fun _ => true) ≥ 1024 then some 0x0C
    else if (freeClusters s (descRoom d)).length < descField d 52 1 then some 0x06
    else none
  | 0x40 => if s.engine.caravans.length + openWork s 0x40 (fun _ => true) ≥ 256 then some 0x06 else none
  | _ => none

/-! ### SYNC_BIND -/

/-- Releases one object: waiters are answered with 0x03 and the error value (R146). -/
def releaseSync (s : State) (n : Nat) : State :=
  let ws := s.sync.waiters.filter (fun w => w.n == n)
  let s := { s with sync := { s.sync with
    objs := s.sync.objs.filter (fun o => o.n != n), waiters := s.sync.waiters.filter (fun w => w.n != n) } }
  ws.foldl (fun s w => respondErr s w.req (.sync .ld 0 0 0) 0x03) s

/-- SYNC_BIND on an entry that runs. -/
def syncBindRun (s : State) (en : Entry) : State :=
  let d := en.desc
  let r : RoomId := BitVec.ofNat 8 (descField d 24 1)
  let ns := (List.range (descField d 20 4)).map (fun i => descField d 16 4 + i)
  if !fromRoom en r then finishStatus s en.n 0x03 0 0
  else if descField d 26 1 % 2 = 1 then
    let hit := ns.filter (fun n => match syncObjOf s n with
      | some o => o.room == r
      | none => false)
    finishDone (pump (hit.foldl releaseSync s)) en.n hit.length (ns.length - hit.length)
  else
    let hit := ns.filter (fun n => (syncObjOf s n).isNone)
    let new := hit.map fun n => ({ n := n, room := r, domain := BitVec.ofNat 8 (descField d 25 1), value := 0 } : SyncObj)
    finishDone { s with sync := { s.sync with objs := s.sync.objs ++ new } } en.n hit.length (ns.length - hit.length)

/-- SYNC_BIND (R146). -/
def execSyncBind (e : Nat) (s : State) : Host.Outcome State Fault Refusal := .next (withMap s e 0x29 syncBindRun)

/-! ### TILE_FORMAT -/

/-- TILE_FORMAT on an entry that runs. -/
def tileFormatRun (s : State) (en : Entry) : State :=
  let d := en.desc
  let g := descWord d 16
  let keys := (List.range (descField d 24 4)).map (fun i => tileKey g + i)
  let hit := keys.filter fun k => (tileOf s k).isSome && (entryRoom en == 0 || tileRoom s k == entryRoom en)
  if !isHome s (homeOf g) || (entryRoom en != 0 && hit.isEmpty) then finishStatus s en.n 0x03 0 0
  else
    let upTo := (hit.findIdx? (fun k => meetsDrain s en.n (BitVec.ofNat 64 (k * 65536)))).getD hit.length
    let s := (hit.take upTo).foldl (fun s k => updTile s k fun t => { t with
      layout := BitVec.ofNat 128 (descField d 28 16)
      table := if descField d 30 1 = 0 then t.table else descWord d 44 }) s
    let s := journal s 11 (tileKey g)
    match hit[upTo]? with
    | some k => finishStatus (updLedger s en.n fun y => { y with position := BitVec.ofNat 64 (k * 65536) }) en.n 0x06 (k * 65536) 0
    | none => finishDone s en.n hit.length (keys.length - hit.length)

/-- TILE_FORMAT (R177 to R179). -/
def execTileFormat (e : Nat) (s : State) : Host.Outcome State Fault Refusal := .next (withMap s e 0x2D tileFormatRun)

end Sys2Proof.Machine
end

