-- ==== Sys2Proof/Machine/Migration.lean ====
section
/-!
DEFINITION. Machine/Migration.lean: the migration state machine (R160 to R167), map messages (R162, R163), MIGRATE (R168),
automatic moves (R158, R170), weight streaming (R173 to R176), evacuation (R172) and trays (R154, R171).
-/

namespace Sys2Proof.Machine

/-! ### Booking and settling a move (R156, R161, R169) -/

/-- Whether a tile's extent may lie in a tier: survival, and no line-addressed form in tier 2. -/
def tierAllowed (x : Extent) (tier : Nat) : Bool := survivalAllows x.survival tier && !(tier == 2 && x.lineAddressed)

/-- The residence of a tile on unit `u` of a tier. -/
def residenceOn (x : Extent) (tier u : Nat) : Residence :=
  { tier := tier, unit := u, lineAddressed := x.lineAddressed && tier == 1 }

/-- Books the move of a mover to a tier, on a named unit or (none) on the one that R156 chooses; none where it is skipped. -/
def bookMover (s : State) (m : Mover) (tier : Nat) (unit_ : Option Nat) (work : Option Nat) : Option State :=
  match extentOf s (m.key / 32) with
  | none => none
  | some x =>
    let u := match unit_ with
      | some u => if unitFree s tier u ≥ 1 then some u else none
      | none => placeOn s x.room tier 1
    match u with
    | none => none
    | some u =>
      if m.mig != .settled || !tierAllowed x tier || (m.res.tier == tier && m.res.unit == u) || decide (quotaFree s x.room tier < 1)
          || m.lost || x.st != .bound then none
      else some (putMover s { m with mig := .booked, dest := some (residenceOn x tier u), porter := none, work := work })

/-- Books the move of a head tile. -/
def bookMove (s : State) (key tier : Nat) (unit_ : Option Nat) (work : Option Nat) : Option State :=
  match tileOf s key with
  | some t => bookMover s (headMover t) tier unit_ work
  | none => none

/-- Counts a settled tile for the work that it belongs to. -/
def countMoved (s : State) (work : Option Nat) (moved : Bool) : State :=
  match work with
  | some e => updLedger s e fun x => if moved then { x with doneCount := x.doneCount + 1 } else { x with skipCount := x.skipCount + 1 }
  | none => s

/-- Tiles of a layer. -/
def layerKeys (l : Layer) : List Nat := (List.range l.count).map (fun i => tileKey l.first + i)

/-- A move of a stream into tier 0 that ends after the need time of its layer, in the layer's present pass, is late (R176). -/
def countLate (s : State) (m : Mover) : State :=
  match s.maps.streams.find? (fun v => v.schedule && m.work == some v.e) with
  | none => s
  | some v =>
    match v.layers.find? (fun l => decide (tileKey l.first ≤ m.key) && decide (m.key < tileKey l.first + l.count)) with
    | none => s
    | some l =>
      let inward : Bool := match m.dest with
        | some d => d.tier == 0
        | none => false
      if inward && decide (s.time.now > v.start + (l.ins - 1) * v.period + l.need) then
        updRoom s v.room fun r => { r with lateMoves := r.lateMoves + 1 }
      else s

/-- A controller that is retired, or a tray that is lost. -/
def unitLost (s : State) (d : Residence) : Bool :=
  if d.tier = 0 then isRetired s 0x06 d.unit else (trayDecl s d.tier d.unit).isNone

/-- The lines of a mover that lie on a retired channel of its source are poisoned where it arrives (R172). -/
def poisonLost (s : State) (m : Mover) : State :=
  match if m.res.tier = 0 then contentsOf s m.cut m.key else none with
  | none => s
  | some c =>
    let bad := ((List.range 1024).map (fun i => m.key * 1024 + i)).filter (fun l => placeLost s m.res (lineGfa l))
    putContents s m.cut m.key c.cells (bad.foldl (fun k l => putMark l (some .poisoned) k) c.marks)

/-- A mover settles at its destination, and the tile's epoch becomes e + 1 (R162). -/
def settleDest (s : State) (m : Mover) : State :=
  match m.dest with
  | none => s
  | some d =>
    let keep := isCompressed m.res && isCompressed d
    let s := dropUnits (poisonLost s m) m.cut m.key
    let s := putMover s { idle m with res := d, lost := unitLost s d }
    let s := updTile s m.key fun t => { t with
      e := t.e + 1
      cow := t.cow && m.cut.isSome
      image := if m.cut.isSome || keep then t.image else none }
    let s := match m.cut with
      | some c => { s with maps := { s.maps with
          retained := mapIf (fun y => y.cut == c && y.tile == m.key) (fun y => { y with image := if keep then y.image else none })
            s.maps.retained } }
      | none => s
    let s := if keep then s else recodeAt s m.cut m.key
    pump (countMoved (countLate s m) m.work true)

/-- A mover settles at its source with e: the destination is freed (R161). -/
def settleSource (s : State) (m : Mover) : State := pump (countMoved (endMove s m (idle m)) m.work false)

/-! ### Map messages (R162, R163) -/

/-- The tile entry of R163 for a tile's move. -/
def tileEntry (t : Tile) (d : Residence) (verdict : Nat) : Word :=
  fieldOf 48 16 (t.e.toNat + 1) ||| fieldOf 43 5 (t.key % 32) ||| fieldOf 41 2 d.tier
    ||| fieldOf 40 1 (if d.lineAddressed then 1 else 0) ||| fieldOf 32 8 d.unit ||| fieldOf 0 2 verdict

/-- The map holder of a room, as far as this switch knows. -/
def holderOf (s : State) (r : RoomId) : SwitchId :=
  match roomOf s r with
  | some x => x.holder
  | none => selfId s

/-- Sends a map message; an answer echoes its question's tag. -/
def sendMap (s : State) (opcode : BitVec 8) (vc : BitVec 3) (r : RoomId) (dst : AgentId) (tag : Tag) (ext : Nat) (es : List Word) : State :=
  emit s (mkPacket s opcode vc 0 0 r dst tag (BitVec.ofNat 64 (ext * 2 ^ 21)) 0 (es.flatMap (fun w => leBytes 8 w.toNat)))

/-- What the map holder recorded of e + 1 for a tile: the very commit, or a refusal (R162, R166). -/
def recOf (s : State) (tile : Nat) (w : Word) : Option MapRec :=
  s.maps.recs.find? (fun x => x.tile == tile && x.epoch == w.extractLsb' 48 16 && (!x.recorded || x.entry == w))

/-- Puts a record in the place of a tile's last, and into the journal (R349). -/
def putRec (s : State) (kind : Nat) (x : MapRec) : State :=
  journal { s with maps := { s.maps with recs := s.maps.recs.filter (fun y => y.tile != x.tile) ++ [x] } } kind x.tile

/-- The map holder records a commit, or finds what it recorded; its verdict is 1 recorded, 2 refused (R162, R166). -/
def recordCommit (s : State) (tile : Nat) (w : Word) : State × Nat :=
  match recOf s tile w with
  | some x => (s, if x.recorded then 1 else 2)
  | none => (putRec s 12 { tile := tile, epoch := w.extractLsb' 48 16, recorded := true, entry := w }, 1)

/-- The answer to a query: a commit that is not recorded is recorded as refused (R165). -/
def answerQuery (s : State) (tile : Nat) (w : Word) : State × Nat :=
  match recOf s tile w with
  | some x => (s, if x.recorded then 1 else 2)
  | none => (putRec s 13 { tile := tile, epoch := w.extractLsb' 48 16, recorded := false, entry := w }, 2)

/-- What the twin of a map holder says from its mirror (R165). -/
def mirrorSays (tile : Nat) (w : Word) : Nat := if Config.mirrorVerdict tile (w.extractLsb' 48 16).toNat then 1 else 2

/-- The tile that an entry of a message names. -/
def entryTile (m : MapMsg) (w : Word) : Nat := extKey m.extent * 32 + bitsAt w 43 5

def withVerdict (w : Word) (v : Nat) : Word := (w &&& 0xFFFFFFFFFFFFFFFC) ||| fieldOf 0 2 v

/-- The switch that decides for a room: its map holder, or for a query the holder's twin where no path to the holder is up (R165). -/
def mapTarget (s : State) (r : RoomId) (query : Bool) : SwitchId :=
  let h := holderOf s r
  let reached : Bool := match pathSetOf s r (currentEpoch s r) (.home h) with
    | some p => !(livePorts s p).isEmpty
    | none => false
  if h == selfId s || reached || !query then h else (twinOf s r (currentEpoch s r) h).getD h

/-- Sends the commit of a Committing mover, or the query of a Disputed one; where this switch itself decides, it is decided at once,
as soon as the journal has space (R349). -/
def askMap (s : State) (m : Mover) : State :=
  match tileOf s m.key, m.dest with
  | some t, some d =>
    let query := m.mig == .disputed
    let r := tileRoom s m.key
    let w := tileEntry t d 0
    let dst := mapTarget s r query
    if dst ≠ selfId s then
      sendMap s (if query then 0xF2 else 0xF0) vcCtl r (Config.agentOf dst) (m.tag.getD 0) (m.key / 32) [w]
    else if isMapHolder s r && journalFull s then s
    else
      let (s, v) :=
        if !query then recordCommit s m.key w else if isMapHolder s r then answerQuery s m.key w else (s, mirrorSays m.key w)
      if v = 1 then settleDest s m else settleSource s m
  | _, _ => s

/-- Moves that wait for this switch's own decision (R349). -/
def askAgain (s : State) : State :=
  ((movers s).filter (fun m => (m.mig == .committing || m.mig == .disputed)
    && mapTarget s (tileRoom s m.key) (m.mig == .disputed) == selfId s)).foldl askMap s

/-- The tag of a mover's next message: the one it has, or the lowest free slot of engine 519 (R163, R465). -/
def mapTag (s : State) (m : Mover) : Option Tag :=
  match m.tag with
  | some t => some t
  | none => (freeSlot s 519).map fun k => BitVec.ofNat 20 (519 * 512 + k)

/-- A mover's commit goes out; with no slot free it stays in Closing (R162, R465). -/
def sendCommit (s : State) (m : Mover) : State :=
  match mapTag s m with
  | none => s
  | some t =>
    let m := { m with mig := .committing, since := s.time.now, porter := none, tag := some t }
    askMap (putMover s m) m

/-- A mover becomes Disputed: the query goes out, under the tag of the commit that it replaces (R165). -/
def disputeTile (s : State) (m : Mover) : State :=
  let m := { m with mig := .disputed, since := s.time.now, porter := none, tag := mapTag s m }
  askMap (putMover s m) m

/-! ### Weight streams (R173 to R176) -/

def updStream (s : State) (e : Nat) (f : Stream → Stream) : State :=
  { s with maps := { s.maps with streams := mapIf (fun v => v.e == e) f s.maps.streams } }

def streamOf (s : State) (e : Nat) : Option Stream := s.maps.streams.find? (fun v => v.e == e)

/-- The tier of the room's trays that R156 finds space in. -/
def backTier (s : State) (r : RoomId) : Nat := if (placeOn s r 1 1).isSome && decide (1 ≤ quotaFree s r 1) then 1 else 2

/-- Tries the move of one tile of a stream's list: what cannot be booked yet stays in it (R175); a Draining extent ends the stream
(R44). -/
def pushTile (s : State) (v : Stream) (k : Nat × Bool) : State :=
  match streamOf s v.e, tileOf s k.1 with
  | none, _ => s
  | _, none => s
  | _, some t =>
    if meetsDrain s v.e (tileGfa k.1) then endByDrain s v.e k.1
    else
      let stay := updStream s v.e fun v => { v with todo := v.todo ++ [k] }
      if t.lost then s
      else if t.mig != .settled then stay
      else if (t.res.tier == 0) == k.2 then s
      else (bookMove s k.1 (if k.2 then 0 else backTier s v.room) none (some v.e)).getD stay

/-- Tries every move of a stream that waits. -/
def pushStream (s : State) (v : Stream) : State :=
  v.todo.foldl (fun s k => pushTile s v k) (updStream s v.e fun v => { v with todo := [] })

/-- Layers of a stream that are resident or in a move (R174). -/
def busyLayers (s : State) (v : Stream) : Nat :=
  (v.layers.filter (fun l => !l.skipped && (decide (l.rel < l.ins) || (layerKeys l).any (fun k =>
    v.todo.any (fun x => x.1 == k) || (moversOf s k).any (fun m => m.work == some v.e))))).length

/-- The next layer in table order that is not resident, the order wrapping to the next pass; its place in the table. -/
def nextLayer (v : Stream) : Option Nat :=
  let n := v.layers.length
  let free := (v.layers.zipIdx.filter (fun x => !x.1.skipped && x.1.ins == x.1.rel && decide (x.1.ins < v.passes))).map
    (fun x => x.1.ins * n + x.2)
  match free with
  | [] => none
  | a :: l => some (l.foldl min a % n)

/-- Changes layer `i` of a stream. -/
def updLayer (s : State) (e i : Nat) (f : Layer → Layer) : State :=
  updStream s e fun v => { v with layers := v.layers.zipIdx.map fun x => if x.2 = i then f x.1 else x.1 }

/-- Layers move in while fewer than W are resident or in a move; `k` bounds the rounds. -/
def fillWindow : Nat → State → Nat → State
  | 0, s, _ => s
  | k + 1, s, e =>
    match streamOf s e with
    | none => s
    | some v =>
      if busyLayers s v ≥ v.window then s
      else match nextLayer v with
        | none => s
        | some i =>
          let keys := match v.layers[i]? with
            | some l => layerKeys l
            | none => []
          let s := updLayer s e i fun l => { l with ins := l.ins + 1 }
          let s := updStream s e fun v => { v with todo := v.todo ++ keys.map (fun t => (t, true)) }
          let s := match streamOf s e with
            | some v => pushStream s v
            | none => s
          fillWindow k s e

/-- Value of a stream's release object, as a count of layers released. -/
def releaseCount (s : State) (v : Stream) : Nat :=
  match syncObjOf s v.obj with
  | some o => if o.value.toInt < 0 then 0 else o.value.toNat
  | none => 0

/-- Passes of layer `i` that are due to be released: by the object's value (R174), or by fabric time (R175). -/
def duePasses (s : State) (v : Stream) (i : Nat) (l : Layer) : Nat :=
  if v.schedule then
    (if s.time.now < v.start + l.release then 0 else min v.passes ((s.time.now - v.start - l.release) / max 1 v.period + 1))
  else
    let c := releaseCount s v
    if c ≤ i then 0 else min v.passes ((c - i - 1) / max 1 v.layers.length + 1)

/-- Releases a layer that is due: its tiles move back to a tray of the room. -/
def releaseLayer (s : State) (e : Nat) (x : Layer × Nat) : State :=
  match streamOf s e with
  | none => s
  | some v =>
    let n := duePasses s v x.2 x.1
    if n ≤ x.1.rel then s
    else
      let keys := if x.1.skipped then [] else layerKeys x.1
      let s := updLayer s e x.2 fun l => { l with rel := n, ins := max l.ins n }
      updStream s e fun v => { v with
        todo := v.todo.filter (fun k => !keys.contains k.1) ++ keys.map (fun t => (t, false)) }

/-- What a stream can do now: release what is due where `release` says so, move out and in what finds space; when all passes are
done and nothing moves any more, it completes (R173 to R175). -/
def runStream (release : Bool) (s : State) (v : Stream) : State :=
  let s := if release then v.layers.zipIdx.foldl (fun s x => releaseLayer s v.e x) s else s
  let s := match streamOf s v.e with
    | some v => pushStream s v
    | none => s
  let s := fillWindow v.layers.length s v.e
  match streamOf s v.e with
  | none => s
  | some v =>
    if v.layers.all (fun l => decide (v.passes ≤ l.rel)) && v.todo.isEmpty && !(movers s).any (fun m => m.work == some v.e) then
      finishDone { s with maps := { s.maps with streams := s.maps.streams.filter (fun y => y.e != v.e) } } v.e v.passes
        (v.layers.filter (fun l => l.skipped)).length
    else s

/-! ### Evacuation (R172) -/

/-- Other controllers of a room, in service; room 0x00's own extents may lie on any (R153). -/
def otherHbm (s : State) (r : RoomId) (c : Nat) : List Nat :=
  ((if r = 0 then (List.range 16).filter (fun u => !isRetired s 0x06 u && !s.maps.evac.any (fun x => x.1 == u)) else roomUnits s r 0).filter
    (fun u => u != c && decide (unitFree s 0 u ≥ 1)))

/-- Whether a room is over its quota in a tier (R170). -/
def overQuota (s : State) (r : RoomId) (tier : Nat) : Bool := r != 0 && decide (quotaOf s r tier * 32 < quotaUse s r tier)

/-- Books a mover away from a controller that is being emptied: to another controller of the room if there is space, a transient
tile otherwise to tier 1; a package tile that finds no space is lost whole. While its room is over quota there it stays (R170). -/
def bookEvac (s : State) (m : Mover) : State :=
  match extentOf s (m.key / 32) with
  | none => s
  | some x =>
    let go := fun (tier u : Nat) =>
      if overQuota s x.room tier then s else putMover s { m with mig := .booked, dest := some (residenceOn x tier u), work := none }
    match maxBy (unitFree s 0) (otherHbm s x.room m.res.unit) with
    | some u => go 0 u
    | none =>
      if x.survival = 2 then putMover s { m with lost := true }
      else match placeOn s x.room 1 1 with
        | some u => go 1 u
        | none => s

/-- Books what can be booked of the controllers that are being emptied. -/
def pushEvac (s : State) : State :=
  ((movers s).filter (fun m => m.res.tier == 0 && m.mig == .settled && !m.lost && s.maps.evac.any (fun x => x.1 == m.res.unit))).foldl bookEvac s

/-- What follows an event that may end a drain, a domain change or a wait on a sync object, or may free space. -/
def settleAll (s : State) : State :=
  let s := askAgain (settle s)
  pushEvac (s.maps.streams.foldl (fun s v => runStream (!v.schedule) s v) s)

/-! ### Commands of the state machine -/

/-- The mover of a tile in a state of its move. -/
def moverIn (s : State) (key : Nat) (st : Mig) : Option Mover := (moversOf s key).find? (fun m => m.mig == st)

/-- MOVE_START (R161): a free porter starts a Booked tile: the head, or a tile retained for a version. Their map messages name the
tile alone (R163), so one of them moves at a time. -/
def execMoveStart (tile : Word) (porter : Nat) (s : State) : Host.Outcome State Fault Refusal :=
  let key := tileKey tile
  .next (match moverIn s key .booked with
    | some m =>
      if decide (porter < 64) && !isRetired s 0x09 porter && isRunning s && !(movers s).any (fun y => y.porter == some porter)
          && (moversOf s key).all (fun y => y.mig == .settled || y.mig == .booked) then
        let s := startPass (checkTile s m.cut key) porter key
        putMover s { m with mig := .moving, porter := some porter }
      else s
    | none => s)

/-- MOVE_PASS_END (R161): writes wait from here on. -/
def execMovePassEnd (tile : Word) (s : State) : Host.Outcome State Fault Refusal :=
  .next (match moverIn s (tileKey tile) .moving with
    | some m => if isRunning s then endMove s m { m with mig := .closing } else s
    | none => s)

/-- MOVE_CLOSE_DONE (R161, R162): the commit is sent; the porter is free. -/
def execMoveCloseDone (tile : Word) (s : State) : Host.Outcome State Fault Refusal :=
  .next (match moverIn s (tileKey tile) .closing with
    | some m => if isRunning s then settleAll (sendCommit s m) else s
    | none => s)

/-- Answers a map message entry by entry. -/
def answerMap (s : State) (opcode : BitVec 8) (m : MapMsg) (f : State → Nat → Word → State × Nat) : State :=
  let (s, ws) := m.entries.foldl (fun (p : State × List Word) w =>
    let (s, v) := f p.1 (entryTile m w) w
    (s, p.2 ++ [withVerdict w v])) (s, [])
  sendMap s opcode vcRsp m.room m.src m.tag (extKey m.extent) ws

/-- MAP_COMMIT (R162, R163, R166): the map holder records it and answers; with the journal full it waits (R349). -/
def execMapCommit (m : MapMsg) (s : State) : Host.Outcome State Fault Refusal :=
  .next (if isRunning s && isMapHolder s m.room && journalFull s then s
    else
      let s := takeInbox s 0xF0 m.src m.tag
      if !isRunning s || !isMapHolder s m.room then s else answerMap s 0xF1 m recordCommit)

/-- One verdict at the home: the tile settles. -/
def takeVerdict (s : State) (key : Nat) (w : Word) (st : Mig) : State :=
  match tileOf s key, moverIn s key st with
  | some t, some m =>
    if w.extractLsb' 48 16 == t.e + 1 then (if bitsAt w 0 2 = 1 then settleDest s m else settleSource s m) else s
  | _, _ => s

/-- MAP_ACK (R162). -/
def execMapAck (m : MapMsg) (s : State) : Host.Outcome State Fault Refusal :=
  .next (if isRunning s then
      settleAll (m.entries.foldl (fun s w => takeVerdict s (entryTile m w) w .committing) (takeInbox s 0xF1 m.src m.tag))
    else s)

/-- MAP_QUERY (R165): answered by the map holder, or by its twin from the mirror. -/
def execMapQuery (m : MapMsg) (s : State) : Host.Outcome State Fault Refusal :=
  .next (if isRunning s && isMapHolder s m.room && journalFull s then s
    else
      let s := takeInbox s 0xF2 m.src m.tag
      if !isRunning s then s
      else if isMapHolder s m.room then answerMap s 0xF3 m answerQuery
      else if twinPresent s && holderOf s m.room == twinId s then answerMap s 0xF3 m (fun s t w => (s, mirrorSays t w))
      else s)

/-- MAP_ANSWER (R165, step 4). -/
def execMapAnswer (m : MapMsg) (s : State) : Host.Outcome State Fault Refusal :=
  .next (if isRunning s then
      settleAll (m.entries.foldl (fun s w => takeVerdict s (entryTile m w) w .disputed) (takeInbox s 0xF3 m.src m.tag))
    else s)

/-- COMMITTING_TIMER (R165): 20 us without an acknowledgement. -/
def execCommittingTimer (tile : Word) (s : State) : Host.Outcome State Fault Refusal :=
  .next (match moverIn s (tileKey tile) .committing with
    | some m => if decide (m.since + 20000 ≤ s.time.now) && isRunning s then settleAll (disputeTile s m) else s
    | none => s)

/-! ### MIGRATE (R168) -/

/-- One tile of a MIGRATE: booked, or skipped; after a Draining extent has ended the descriptor nothing more is booked. -/
def migrateOne (en : Entry) (s : State) (m : Mover) : State :=
  let d := en.desc
  let u := if descField d 29 1 = 0xFF then none else some (descField d 29 1)
  if (match ledgerEntry s en.n with
      | some y => y.result.isSome
      | none => true) then s
  else if meetsDrain s en.n (tileGfa m.key) then endByDrain s en.n m.key
  else if entryRoom en != 0 && tileRoom s m.key != entryRoom en then countMoved s (some en.n) false
  else match bookMover s m (descField d 28 1) u (some en.n) with
    | some s' => s'
    | none => countMoved s (some en.n) false

/-- What a MIGRATE moves of a tile: the head, and where flag bit 2 says so the tiles retained for versions. A tile that is not bound
stands for itself, and is skipped. -/
def migrants (s : State) (d : BitVec 512) (key : Nat) : List Mover :=
  let l := (moversOf s key).filter (fun m => m.cut.isNone || descField d 30 1 / 4 % 2 == 1)
  if l.isEmpty then [headMover { key := key, res := { tier := 3, unit := 0, lineAddressed := false } }] else l

/-- MIGRATE on an entry that runs: every named tile is booked or skipped; the pin bits take effect at the end. -/
def migrateRun (s : State) (en : Entry) : State :=
  let d := en.desc
  let g := descWord d 16
  if !isHome s (homeOf g) then finishStatus s en.n 0x03 0 0
  else if (match ledgerEntry s en.n with
      | some y => y.pendingWork != 0
      | none => false) then s
  else
    let l := ((List.range (descField d 24 4)).map (fun i => tileKey g + i)).flatMap (migrants s d)
    l.foldl (migrateOne en) (updLedger s en.n fun x => { x with pendingWork := l.length + 1 })

/-- MIGRATE (R168). -/
def execMigrate (e : Nat) (s : State) : Host.Outcome State Fault Refusal := .next (settleAll (withMap s e 0x2B migrateRun))

/-! ### WEIGHT_STREAM -/

/-- A layer as its table entry gives it (Table 7-11). -/
def readLayer (s : State) (en : Entry) (l : List Byte) : Layer :=
  let g : Word := BitVec.ofNat 64 (leAt l 0 8)
  let n := leAt l 8 4
  let ok := (List.range n).all fun i => match extentOf s ((tileKey g + i) / 32), tileOf s (tileKey g + i) with
    | some x, some _ => x.survival == 0 && (entryRoom en == 0 || x.room == entryRoom en)
    | _, _ => false
  { first := g, count := n, need := leAt l 16 8, release := leAt l 24 8, skipped := !ok }

/-- The largest window up to `w` whose largest layers fit a number of tiles (Table 7-10). -/
def fitWindow (sizes : List Nat) (free : Nat) : Nat → Nat
  | 0 => 1
  | w + 1 => if (((sizes.mergeSort (fun a b => decide (a ≥ b))).take (w + 1)).sum ≤ free) then w + 1 else fitWindow sizes free w

/-- A layer is another home's, or another room's than the ring's (R173). -/
def foreignLayer (s : State) (en : Entry) (l : Layer) : Bool :=
  !isHome s (homeOf l.first) || (entryRoom en != 0 && (match extentOf s (extKey l.first) with
    | some x => x.room != entryRoom en
    | none => false))

/-- WEIGHT_STREAM on an entry that runs: reads the layer table and moves the first layers in. -/
def streamRun (s : State) (en : Entry) (x : Cells) : State :=
  let d := en.desc
  if (streamOf s en.n).isSome then s
  else
    let n := descField d 24 2
    let got := listRead s en x (descWord d 16) (32 * n)
    if got.status ≠ 0x00 then finishStatus s en.n got.status 0 0
    else
      let layers := (List.range n).map fun i => readLayer s en ((got.bytes.drop (32 * i)).take 32)
      let room : RoomId := match layers with
        | l :: _ => tileRoom s (tileKey l.first)
        | [] => 0
      if layers.any (foreignLayer s en) then finishStatus s en.n 0x03 0 0
      else
        let w := fitWindow ((layers.filter (fun l => !l.skipped)).map (fun l => l.count)) (quotaFree s room 0) (descField d 27 1)
        let s := clampLate s en.n 27 1 w
        let v : Stream :=
          { e := en.n, room := room, layers := layers, window := w, passes := descField d 28 4, schedule := descField d 26 1 == 1
            obj := descField d 36 4, start := descField d 40 8, period := descField d 48 8 }
        { s with maps := { s.maps with streams := s.maps.streams ++ [v] } }

/-- WEIGHT_STREAM (R173, R174). -/
def execWeightStream (e : Nat) (x : Cells) (s : State) : Host.Outcome State Fault Refusal :=
  .next (settleAll (withMap s e 0x2C fun s en => streamRun s en x))

/-- LAYER_RELEASE_TIME (R175): every layer whose release time has come is released. -/
def execLayerReleaseTime (e : Nat) (s : State) : Host.Outcome State Fault Refusal :=
  .next (match streamOf s e with
    | some v => if v.schedule && isRunning s then settleAll (runStream true s v) else s
    | none => s)

/-! ### Automatic moves (R158, R170) -/

/-- Whether a room's use of a tier, less `gone` tiles, is above `pct` percent of its quota (R158). -/
def fillAbove (s : State) (r : RoomId) (tier gone pct : Nat) : Bool :=
  decide (pct * (quotaOf s r tier * 32) < (quotaUse s r tier - gone) * 100)

/-- Whether it is below `pct` percent; a room without quota there uses none of it. -/
def fillBelow (s : State) (r : RoomId) (tier pct : Nat) : Bool :=
  decide (quotaUse s r tier * 100 < pct * (quotaOf s r tier * 32))

def hiOf (s : State) (r : RoomId) (tier : Nat) : Nat :=
  match roomOf s r with
  | some x => if tier = 0 then x.hi0 else x.hi1
  | none => 100

/-- Tiles of a room that automatic moves may choose. -/
def freeTiles (s : State) (r : RoomId) : List Tile :=
  s.maps.tiles.filter fun t => t.mig == .settled && (match extentOf s (t.key / 32) with
    | some x => x.room == r && !x.pin && x.st == .bound
    | none => false)

/-- Promotes the hot tiles, hottest first, ties to the lower GFA. -/
def promoteTiles (s : State) (r : RoomId) (thr : Nat) : State :=
  let hot := ((freeTiles s r).filter (fun t => decide (t.count ≥ thr) && decide (t.res.tier > 0))).mergeSort
    (fun a b => decide (a.count > b.count) || (a.count == b.count && decide (a.key ≤ b.key)))
  hot.foldl (fun s t =>
    if fillBelow s r (t.res.tier - 1) (hiOf s r (t.res.tier - 1)) then
      (match bookMove s t.key (t.res.tier - 1) none none with
        | some s' => s'
        | none => s)
    else s) s

/-- Demotes the coldest tiles of a tier until its fill, less what leaves, is at most `lo`. -/
def demoteTiles (s : State) (r : RoomId) (tier lo : Nat) : State :=
  let cold := ((freeTiles s r).filter (fun t => t.res.tier == tier && (tier == 0 || !t.res.lineAddressed))).mergeSort
    (fun a b => decide (a.count < b.count) || (a.count == b.count && decide (a.key ≤ b.key)))
  (cold.foldl (fun (p : State × Nat) t =>
    if !fillAbove s r tier p.2 lo then p
    else match bookMove p.1 t.key (tier + 1) none none with
      | some s' => (s', p.2 + 1)
      | none => p) (s, 0)).1

/-- TIER_INTERVAL (R158). -/
def execTierInterval (room : RoomId) (s : State) : Host.Outcome State Fault Refusal :=
  .next (match roomOf s room with
    | none => s
    | some x =>
      if !x.unified || !isRunning s then s
      else
        let s := promoteTiles s room x.thr
        let s := if fillAbove s room 0 0 x.hi0 then demoteTiles s room 0 x.lo0 else s
        let s := if fillAbove s room 1 0 x.hi1 then demoteTiles s room 1 x.lo1 else s
        let tiles := mapIf (fun t => tileRoom s t.key == room) (fun (t : Tile) => { t with count := t.count / 2 }) s.maps.tiles
        { s with maps := { s.maps with tiles := tiles } })

/-! ### Trays and evacuation (R154, R171, R172) -/

/-- What the loss of a residence does to the moves of its tiles (R167): a lost destination aborts a move or disputes it; a
lost source loses the tile. -/
def lossOfMoves (s : State) (hit : Residence → Bool) : State :=
  let early := fun (m : Mover) => m.mig == .booked || m.mig == .moving || m.mig == .closing
  let dests := (movers s).filter (fun m => match m.dest with
    | some d => hit d
    | none => false)
  let s := dests.foldl (fun s m =>
    if m.mig == .committing then disputeTile s m else if early m then settleSource s m else s) s
  let srcs := (movers s).filter (fun m => hit m.res)
  srcs.foldl (fun s m =>
    if early m then putMover (settleSource s m) { idle m with lost := true } else putMover s { m with lost := true }) s

/-- TRAY_ENUMERATION (R154): an enabled attachment's tray declares its tiers. -/
def execTrayEnumeration (tray : Nat) (t1 t2 : Option TierDecl) (s : State) : Host.Outcome State Fault Refusal :=
  .next (if isRunning s && trayEn s tray then
      let old := match trayOf s tray with
        | some t => t.timesLost
        | none => 0
      { s with maps := { s.maps with trays := s.maps.trays.filter (fun t => t.n != tray) ++
        [{ n := tray, present := true, lost := false, timesLost := old, t1 := t1, t2 := t2 }] } }
    else s)

/-- TRAY_LOST (R171). -/
def execTrayLost (tray : Nat) (s : State) : Host.Outcome State Fault Refusal :=
  .next (match trayOf s tray with
    | some t =>
      if t.present && !t.lost && isRunning s then
        let trays := mapIf (fun t => t.n == tray) (fun (t : Tray) => { t with lost := true, timesLost := t.timesLost + 1 }) s.maps.trays
        let s := { s with maps := { s.maps with trays := trays } }
        settleAll (pump (refreshTarget (lossOfMoves s (fun d => d.tier != 0 && d.unit == tray))))
      else s
    | none => s)

/-- Starts the evacuation of a controller (R172): of its head tiles and retained tiles; those in a move follow when it settles. -/
def startEvacuation (s : State) (c : Nat) : State :=
  let n := ((movers s).filter (fun m => m.res.tier == 0 && m.res.unit == c && !m.lost)).length
  pushEvac { s with maps := { s.maps with evac := s.maps.evac.filter (fun x => x.1 != c) ++ [(c, n)] } }

/-- EVACUATION_DONE (R172): the controller is empty and returns to service with 7 channels. -/
def execEvacuationDone (controller : Nat) (s : State) : Host.Outcome State Fault Refusal :=
  .next (
    if s.maps.evac.any (fun x => x.1 == controller) && isRunning s
        && !(movers s).any (fun m => !m.lost && (placesOf m).any (fun d => d.tier == 0 && d.unit == controller)) then
      let left := (List.range 8).filter (fun i => !isRetired s 0x05 (8 * controller + i))
      settleAll { s with maps := { s.maps with
        evac := s.maps.evac.filter (fun x => x.1 != controller)
        inService := s.maps.inService.filter (fun x => x.1 != controller) ++ [(controller, left)] } }
    else s)

end Sys2Proof.Machine
end

