-- ==== Sys2Proof/Machine/Admit.lean ====
section
/-!
DEFINITION. Machine/Admit.lean: what each descriptor needs of the calendar (R228, R274, R286, R287, R289, R301, R314), the
promise it is given (Table 9-6), and the admission test (R325 to R328, R461).
-/

namespace Sys2Proof.Machine

/-! ### Demands -/

/-- A byte of a floor field, in MB/s: none in classes other than elastic. -/
def descFloor (d : BitVec 512) : Nat :=
  match descOp d with
  | 0x2B => descField d 32 4
  | 0x2C => descField d 32 4
  | 0x41 => descField d 56 4
  | 0x49 => descField d 40 4
  | 0x60 => descField d 44 4
  | 0x61 => descField d 44 4
  | 0x62 => descField d 56 4
  | 0x63 => descField d 58 2 * 1000
  | 0x72 => descField d 40 4
  | 0x75 => descField d 36 4
  | 0x81 => descField d 32 4
  | 0x92 => descField d 28 4
  | _ => 0

/-- Width in bytes of a contribution of a context. -/
def contribBytes (t : Nat) : Nat := typeBytes t

/-- Bytes of the key and value rows that one token takes for all KV heads of an ATTEND: 2 h_kv d e (R286). -/
def tokenBytes (d : BitVec 512) : Nat :=
  2 * descField d 37 1 * (32 * descField d 36 1) * typeBytes (descField d 35 1)

/-- Lines that a strided GATHER touches, in bytes (R289); an indexed one's are known only from its index list. -/
def gatherBytes (d : BitVec 512) : Nat :=
  if descField d 46 1 = 2 then
    let part := fun (k : Nat) => ((List.range k).map fun i =>
      ((descField d 16 8 + i * descField d 32 8) % 64 + descField d 44 2 + 63) / 64 * 64).sum
    descField d 40 4 / 64 * part 64 + part (descField d 40 4 % 64)
  else Config.workUnits d.toNat 0

/-- The bytes that an elastic promise divides by the floor (Table 9-6, R173, R238, R263, R284, R287, R288, R290, R301). -/
def descSize (s : State) (d : BitVec 512) : Nat :=
  match descOp d with
  | 0x2B => descField d 24 4 * 65536
  | 0x2C => Config.workUnits d.toNat 0
  | 0x41 => descField d 32 8
  | 0x49 => descField d 24 8 * (match contextOf s (selfId s) (descField d 16 2) with
      | some c => contribBytes c.type.toNat
      | none => 4)
  | 0x60 => Config.workUnits d.toNat 2
  | 0x61 => descField d 34 1 * descField d 32 2 * partialBytes d
  | 0x62 => descField d 40 4 * descField d 44 2
  | 0x63 => Config.workUnits d.toNat 0
  | 0x72 => descField d 32 4 * 32
  | 0x75 => Config.workUnits d.toNat 0
  | 0x81 => Config.workUnits d.toNat 0
  | 0x92 => descField d 24 4 * 2097152
  | _ => 0

/-- Ports that transfers to a home cross; none where it is this switch. -/
def linksOf (s : State) (room : RoomId) (gs : List Word) : List Nat :=
  (gs.flatMap (fun g => portsTo s room (homeOf g))).eraseDups

/-- A demand's terms for reading rows spread over the room's memory: tier 0 and trays (R_0, R_t). -/
def memTerms (s : State) (room : RoomId) (v0 vt : Nat) : List Term :=
  (if v0 = 0 then [] else [{ vol := v0, sup := .hbm (roomHbm s room) }]) ++
  (if vt = 0 then [] else [{ vol := vt, sup := .porters (trayRate s room false) }])

/-- The clusters of an open caravan, and the cluster cycles of a run of `n` source bytes in records of `rec_` (R228); the
records and their length stage by stage follow the declared ratios. -/
def caravanCycles (stages : List Stage) (n rec_ : Nat) : Nat :=
  let total := (stages.map (fun g => g.clusters.length)).sum
  (stages.foldl (fun (p : Nat × Nat) g =>
    let m := max 1 (g.clusters.length * max 1 g.usedCores)
    let recs := (n + rec_ - 1) / max 1 rec_
    let vol := (recs * (g.cRec * 256 + g.cByte * p.2) * total + m * 256 - 1) / (m * 256)
    (max p.1 vol, (p.2 * g.ratio + 65535) / 65536)) (0, rec_)).1

/-- What a descriptor needs of the calendar. -/
def demandOf (s : State) (d : BitVec 512) : Demand :=
  let room := descRoom d
  let base : Demand := { size := descSize s d, floor := descFloor d }
  match descOp d with
  | 0x2B =>
    let g := descWord d 16
    let n := descField d 24 4 * 65536
    let v0 := (splitBytes s g n).1 + (if descField d 28 1 = 0 then n else 0)
    { base with phases := [[{ vol := n, sup := .porters (max (trayRate s room false) (62500 * 64)) },
                            { vol := v0, sup := .hbm (roomHbm s room) }]] }
  | 0x2C => { base with phases := [[{ vol := base.size, sup := .porters (62500 * 64) }, { vol := base.size, sup := .hbm (roomHbm s room) }]] }
  | 0x41 =>
    let src := descWord d 24
    let sink := descWord d 40
    match s.engine.caravans.find? (fun v => v.id == descField d 16 1 && (v.room == room || room == 0)) with
    | none => base
    | some v =>
      let cs := v.stages.flatMap (fun g => g.clusters)
      { base with
        phases := [[moveTerm s room src (descField d 32 8) false, moveTerm s room sink (descField d 48 8) true,
          { vol := caravanCycles v.stages (descField d 32 8) (descField d 20 4), sup := .clusters }]]
        fixed := homeBound s src + homeBound s sink true
        from_ := cs, clusters := cs.length, links := linksOf s room [src, sink] }
  | 0x60 =>
    let rec_ := descWord d 16
    let out := descWord d 24
    let k := descField d 39 1
    let vc := Config.workUnits d.toNat 2
    { base with
      phases := [[moveTerm s room rec_ (descField d 32 2 * queryBytes d) false],
        memTerms s room (Config.workUnits d.toNat 0) (Config.workUnits d.toNat 1) ++
          [{ vol := (vc * (8 * descField d 38 1 + 16) + 8191) / 8192, sup := .clusters }],
        [moveTerm s room out (descField d 32 2 * partialBytes d) true]]
      fixed := 2000 + 3 * homeBound s rec_ + homeBound s out true
      from_ := pickClusters s room k, clusters := k, lacks := decide ((freeClusters s room).length < k)
      links := linksOf s room [rec_, out] }
  | 0x61 =>
    let src := descWord d 16
    let out := descWord d 24
    let k := descField d 39 1
    { base with
      phases := [[moveTerm s room src base.size false], [moveTerm s room out (descField d 32 2 * mergeOutBytes d) true]]
      fixed := 2 * homeBound s src + homeBound s out true
      from_ := pickClusters s room k, clusters := k, lacks := decide ((freeClusters s room).length < k)
      links := linksOf s room [src, out] }
  | 0x62 =>
    let src := descWord d 16
    let dst := descWord d 24
    let k := descField d 47 1
    { base with
      phases := [[moveTerm s room src (gatherBytes d) false, moveTerm s room dst base.size true]]
      fixed := 2 * homeBound s src + homeBound s dst true
      from_ := pickClusters s room k, clusters := k, lacks := decide ((freeClusters s room).length < k)
      links := linksOf s room [src, dst] }
  | 0x63 =>
    let src := descWord d 16
    let dst := descWord d 24
    let k := descField d 55 1 / 16 + 1
    { base with
      from_ := pickClusters s room k, clusters := k, lacks := decide ((freeClusters s room).length < k)
      phases := [[moveTerm s room src base.size false,
        moveTerm s room dst (descField d 48 4 * descField d 52 2 * typeBytes (descField d 56 1)) true]]
      fixed := 2 * homeBound s src + homeBound s dst true, links := linksOf s room [src, dst] }
  | 0x72 =>
    let key := descWord d 16
    let res := descWord d 24
    let n := descField d 32 4
    { base with
      phases := [[moveTerm s room key (32 * n) false], [{ vol := n, sup := .array (descField d 36 1) }], [moveTerm s room res (16 * n) true]]
      fixed := homeBound s key + homeBound s res true, links := linksOf s room [key, res] }
  | 0x75 =>
    let list_ := descWord d 16
    let sink := descWord d 40
    match s.filt.automata.find? (fun a => a.id == descField d 28 1 && a.room == room) with
    | none => base
    | some a =>
      let ve := if descField d 29 1 = 0 then base.size * (65536 + a.span) / 65536 else base.size
      { base with
        phases := [[{ vol := ve, sup := .engines (a.replicas * 12800) }, { vol := ve, sup := .hbm (roomHbm s room) }],
          [moveTerm s room sink (descField d 48 8) true]]
        fixed := 2000 + homeBound s list_ + homeBound s sink true
        groups := (a.engines.map (fun e => e / 8)).eraseDups, engines := a.engines.length, links := linksOf s room [list_, sink] }
  | 0x81 => { base with phases := [[{ vol := base.size, sup := .porters (62500 * 64) }, { vol := base.size, sup := .hbm (roomHbm s room) }]] }
  | 0x92 =>
    let v := splitBytes s (descWord d 16) base.size
    { base with phases := [memTerms s room v.1 v.2] }
  | _ => base

/-! ### Promises (Table 9-6) -/

/-- Latest promise among accepted entries that meet `p`; 0 of none. -/
def latestPromise (s : State) (p : Entry → Bool) : Nat :=
  ((s.ledger.entries.filter (fun x => x.st != .mirroring && !x.recorded && descClass x.desc != 2 && p x)).map (fun x => x.promise)).foldl max 0

/-- Opcodes of R294 of a room's accepted guaranteed and elastic work. -/
def bookingWork (room : RoomId) (x : Entry) : Bool :=
  [0x60, 0x71, 0x72, 0x75].contains (descOp x.desc) && entryRoom x == room

/-- Slots of a room's table in an array, and whether it is ternary. -/
def tableShape (s : State) (room : RoomId) (a : Nat) : Nat × Bool :=
  match s.filt.tables.find? (fun t => t.room == room && t.array == a) with
  | some t => (t.count * 65536, t.ternary)
  | none => (0, false)

/-- The fixed bound of an elastic opcode without a floor, from t_a (Table 9-6 and the opcodes' chapters). -/
def fixedBound (s : State) (d : BitVec 512) (tA : Nat) : Nat :=
  match descOp d with
  | 0x20 => tA + 1000000 + 2 * (2000000 + tDead s)
  | 0x22 => tA + 50000 + tDead s + 2000000
  | 0x25 => tA + 1000000 + 20 * descField d 24 4
  | 0x2D => tA + 1000000 + 20 * descField d 24 4
  | 0x40 => tA + 1000000 + 20000 * Config.workUnits d.toNat 0 + Config.workUnits d.toNat 1 / 4
  | 0x70 => max tA (latestPromise s (bookingWork (BitVec.ofNat 8 (descField d 16 1)))) + 1000000
  | 0x71 =>
    let (n, t) := tableShape s (descRoom d) (descField d 28 1)
    tA + 1000000 + (if descField d 29 1 % 2 = 1 then n * 10 / 16 else 0) + descField d 24 4 * (100 + (if t then n * 10 / 16 else 0))
  | 0x73 => tA + 1000000 + descField d 29 1 * descField d 24 4 / 4
  | 0x83 => tA + 100000000 + descField d 24 4
  | 0x90 =>
    if descField d 16 1 = 0 then tA + 10000000
    else if descField d 16 1 = 1 then max tA (latestPromise s (fun _ => true)) + 10000000
    else tA + tTake s + 3000000
  | _ => tA + 1000000

/-- Elastic opcodes that are promised size ÷ floor. -/
def hasFloor (op : Nat) : Bool := [0x2B, 0x2C, 0x41, 0x49, 0x60, 0x61, 0x62, 0x63, 0x72, 0x75, 0x81, 0x92].contains op

/-- Guaranteed opcodes that book nothing (R461). -/
def booksNothing (op : Nat) : Bool :=
  [0x00, 0x01, 0x21, 0x23, 0x27, 0x28, 0x29, 0x42, 0x4A, 0x74, 0x82, 0xA0, 0x91, 0x80].contains op

/-- p.end of a guaranteed descriptor that books nothing (R461). -/
def plainEnd (s : State) (d : BitVec 512) (tA : Nat) : Nat :=
  match descOp d with
  | 0x00 => tA
  | 0x42 => max (tA + 1000000) (latestPromise s (fun x =>
      descOp x.desc == 0x41 && descField x.desc 16 1 == descField d 16 1))
  | 0x4A => max (tA + 1000000) (latestPromise s (fun x => descOp x.desc == 0x49 && descField x.desc 16 2 == descField d 16 2))
  | 0x74 => max (tA + 1000000) (latestPromise s (fun x =>
      descOp x.desc == 0x75 && entryRoom x == descRoom d && descField x.desc 28 1 == descField d 16 1))
  | _ => tA + 1000000

/-- The promise time that the ledger records (Table 15-2). -/
def promiseOf (s : State) (d : BitVec 512) (tA : Nat) : Nat :=
  if descClass d = 0 then descDeadline d
  else if descClass d = 2 then 0
  else if hasFloor (descOp d) then
    tA + (descSize s d * (if descOp d = 0x2C then descField d 28 4 else 1) * 1000 + descFloor d - 1) / max 1 (descFloor d)
  else fixedBound s d tA

/-- Clusters that a descriptor takes from its acceptance on (R255, R275). -/
def claimsOf (s : State) (d : BitVec 512) (p : Option Plan) : List Nat :=
  let op := descOp d
  if op = 0x48 then pickClusters s (descRoom d) (descField d 52 1)
  else if 0x60 ≤ op ∧ op ≤ 0x63 then (match p with
    | some q => q.clusters
    | none => (demandOf s d).from_)
  else []

/-! ### The test (R325) -/

/-- Filter work of a room, which is refused while the room's booking changes (R295). -/
def isFilterWork (s : State) (d : BitVec 512) : Bool :=
  [0x60, 0x71, 0x72, 0x73, 0x74, 0x75].contains (descOp d) ||
    (descOp d == 0x41 && s.engine.caravans.any (fun v => v.id == descField d 16 1 && (v.room == descRoom d || descRoom d == 0) &&
      v.stages.any (fun g => g.builtin == some 6 || g.builtin == some 7)))

/-- The room resources test, reason 0x06. -/
def roomHolds (s : State) (d : BitVec 512) : Bool :=
  !(demandOf s d).lacks
    && !(isFilterWork s d && s.filt.booking.any (fun b => b.1 == descRoom d))
    && !s.boot.roomResets.contains (descRoom d)

/-- What the test says: refused for a reason with bytes 16 to 23, or accepted with its bookings (none where it books
nothing). -/
inductive Verdict where
  | refuse (reason earliest : Nat)
  | take (plan : Option Plan)
  deriving DecidableEq, Repr

/-- The admission test of a descriptor at t_a; the mirror's part of it is MIRROR_ACK's. -/
def admitTest (s : State) (d : BitVec 512) (tA : Nat) : Verdict :=
  let dm := demandOf s d
  let room := descRoom d
  if s.hlth.state == .retiring || mirrorTarget s == 0 then .refuse 0x07 0
  else if !roomHolds s d then .refuse 0x06 0
  else if (ownRefusal s d).isSome then .refuse ((ownRefusal s d).getD 0) 0
  else if descClass d = 2 then .take none
  else if descOp d = 0x49 then .take none
  else if descClass d = 1 then
    if !hasFloor (descOp d) then .take none
    else match searchFloor s 5 room dm tA with
      | some p => .take (some p)
      | none => if dm.phases.isEmpty then .take none else .refuse (floorReason s room dm tA) 0
  else if booksNothing (descOp d) || dm.phases.isEmpty then
    let t := plainEnd s d tA + margin s dm
    if t ≤ descDeadline d then .take none else .refuse 0x01 t
  else match searchGuaranteed s 5 room dm tA (some (descDeadline d)) with
    | some p => .take (some p)
    | none => .refuse (shortReason s room dm tA (descDeadline d)) (earliestDeadline s room dm tA)

end Sys2Proof.Machine
end

