-- ==== Sys2Proof/Machine/FilterOps.lean ====
section
/-!
DEFINITION. Machine/FilterOps.lean: lookups and updates of associative arrays (R296 to R303), the check, load and steps of
automata (R305 to R311).
-/

namespace Sys2Proof.Machine

/-! ### Lookups (R297, R298, R300) -/

def tableOf (s : State) (room : RoomId) (array : Nat) : Option Table :=
  s.filt.tables.find? (fun t => t.room == room && t.array == array)

def updTable (s : State) (room : RoomId) (array : Nat) (f : Table → Table) : State :=
  { s with filt := { s.filt with tables := mapIf (fun t => t.room == room && t.array == array) f s.filt.tables } }

/-- Whether a row or a copy matches a key. -/
def rowMatches (ternary : Bool) (r : ArrRow) (key : BitVec 256) : Bool := if ternary then key &&& r.mask == r.key else key == r.key

/-- Slots of a table, and slots that an entry takes. -/
def tableSlots (t : Table) : Nat := t.count * 65536
def entrySlots (t : Table) : Nat := if t.ternary then 2 else 1

/-- Ternary entries lie in slot order without gaps. -/
def reslot (l : List ArrEntry) : List ArrEntry := l.zipIdx.map (fun x => { x.1 with slot := 2 * x.2 })

/-- The entries without one of them. -/
def removeEntry (t : Table) (e : ArrEntry) : Table :=
  let rest := t.entries.filter (fun x => x.slot != e.slot)
  { t with entries := if t.ternary then reslot rest else rest }

/-- The outcome of a lookup: the winner, the false hits discarded, and the entries lost to ECC. -/
structure Looked where
  table : Table
  winner : Option ArrEntry
  falseHits : Nat
  lost : List Nat
  deriving DecidableEq, Repr

/-- Goes down the rows in slot order: the first row that matches and whose copy matches wins; a false hit's row is rewritten
from its copy, an entry whose copy is lost is removed, and in a ternary table those below it have moved up. -/
def lookupRows (key : BitVec 256) : List ArrEntry → Looked → Looked
  | [], r => r
  | e :: l, r =>
    let e : ArrEntry := { e with slot := e.slot - (if r.table.ternary then 2 * r.lost.length else 0) }
    if !rowMatches r.table.ternary e.row key then lookupRows key l r
    else if e.eccBad then
      lookupRows key l { r with table := removeEntry r.table e, falseHits := r.falseHits + 1, lost := r.lost ++ [e.slot] }
    else if rowMatches r.table.ternary e.copy key then { r with winner := some e }
    else
      let es := mapIf (fun x => x.slot == e.slot) (fun (x : ArrEntry) => { x with row := x.copy }) r.table.entries
      lookupRows key l { r with table := { r.table with entries := es }, falseHits := r.falseHits + 1 }

/-- Entries in slot order. -/
def inSlotOrder (t : Table) : List ArrEntry := t.entries.mergeSort (fun a b => decide (a.slot ≤ b.slot))

def lookupTable (t : Table) (key : BitVec 256) : Looked :=
  lookupRows key (inSlotOrder t) { table := t, winner := none, falseHits := 0, lost := [] }

/-- The 16 B result (Table 13-2). -/
def resultBytes (w : Option ArrEntry) (flags : Nat) : List Byte :=
  match w with
  | some e => leBytes 8 e.copy.result.toNat ++ leBytes 2 e.copy.prio.toNat ++ [BitVec.ofNat 8 (flags + 1), 0] ++ leBytes 4 e.slot
  | none => leBytes 8 0 ++ leBytes 2 0 ++ [BitVec.ofNat 8 flags, 0] ++ leBytes 4 0xFFFFFFFF

def bumpCount (k n : Nat) (l : List (Nat × Nat)) : List (Nat × Nat) :=
  if n = 0 then l
  else if l.any (fun x => x.1 == k) then l.map (fun x => if x.1 = k then (k, x.2 + n) else x) else l ++ [(k, n)]

/-- A fault record for an entry whose copy was lost. -/
def lostEntry (room : RoomId) (array : Nat) (s : State) (slot : Nat) : State :=
  addFault s { mkFault 0x0C 1 (slot + array * 2 ^ 32) with room := room }

/-- One lookup of a room in an array: its result, whether it hit, its false hits, and the state after. -/
def arrayLookup (s : State) (room : RoomId) (array : Nat) (key : BitVec 256) : State × List Byte × Bool × Nat :=
  match tableOf s room array with
  | none => (s, resultBytes none 4, false, 0)
  | some t =>
    let r := lookupTable t key
    let s := updTable s room array (fun _ => r.table)
    let s := { s with filt := { s.filt with falseHits := bumpCount array r.falseHits s.filt.falseHits } }
    let s := r.lost.foldl (lostEntry room array) s
    (s, resultBytes r.winner (if r.falseHits > 0 then 2 else 0), r.winner.isSome, r.falseHits)

/-! ### Updates (R302, R303) -/

/-- An update record as it stands. -/
structure Update where
  delete : Bool
  row : ArrRow
  /-- fields clamped. -/
  clamps : Nat
  deriving DecidableEq, Repr

/-- An update record of 96 B (Table 13-5). -/
def readUpdate (ternary : Bool) (l : List Byte) : Update :=
  let op := leAt l 0 1
  let key : BitVec 256 := BitVec.ofNat 256 (leAt l 16 32)
  let mask : BitVec 256 := if ternary then BitVec.ofNat 256 (leAt l 48 32) else BitVec.allOnes 256
  { delete := op == 1
    row := { key := key &&& mask, mask := mask, prio := BitVec.ofNat 16 (leAt l 2 2), result := BitVec.ofNat 64 (leAt l 8 8) }
    clamps := (if op > 1 then 1 else 0) + (if key &&& mask ≠ key then 1 else 0) }

/-- The entry of a row's key (and mask). -/
def findEntry (t : Table) (r : ArrRow) : Option ArrEntry :=
  t.entries.find? (fun e => e.copy.key == r.key && (!t.ternary || e.copy.mask == r.mask))

/-- Inserts a new entry; none into a full table. -/
def insertNew (t : Table) (r : ArrRow) : Option Table :=
  if (t.entries.length + 1) * entrySlots t > tableSlots t then none
  else
    let e : ArrEntry := { slot := 0, copy := r, row := r }
    if t.ternary then
      let before := t.entries.filter (fun x => decide (x.copy.prio.toNat ≥ r.prio.toNat))
      let after := t.entries.filter (fun x => decide (x.copy.prio.toNat < r.prio.toNat))
      some { t with entries := reslot (before ++ [e] ++ after) }
    else
      let slot := ((List.range (t.entries.length + 1)).find? (fun i => !t.entries.any (fun x => x.slot == i))).getD 0
      some { t with entries := t.entries ++ [{ e with slot := slot }] }

/-- Rewrites an entry's result and priority in one write. -/
def rewriteEntry (t : Table) (e : ArrEntry) (r : ArrRow) : Table :=
  let es := mapIf (fun x => x.slot == e.slot) (fun (x : ArrEntry) => { x with copy := r, row := r, eccBad := false }) t.entries
  { t with entries := es }

/-- Applies one record; none where it is skipped. -/
def applyUpdate (t : Table) (u : Update) : Option Table :=
  match findEntry t u.row, u.delete with
  | some e, true => some (removeEntry t e)
  | none, true => none
  | some e, false =>
    if t.ternary && e.copy.prio != u.row.prio then insertNew (removeEntry t e) u.row else some (rewriteEntry t e u.row)
  | none, false => insertNew t u.row

/-! ### Automata (R306 to R308) -/

/-- One failed or passed check of an image: part and offset of the byte it concerns. -/
structure Check where
  ok : Bool
  part : Nat
  off : Nat
  deriving DecidableEq, Repr

/-- Checks of the header (Table 13-6). -/
def headerChecks (b : List Byte) (len : Nat) : List Check :=
  let at_ := fun (o : Nat) (ok : Bool) => ({ ok := ok, part := 0, off := o } : Check)
  [at_ 0 (leAt b 0 4 == 0x4D545541), at_ 4 (leAt b 4 2 == 1), at_ 6 (decide (1 ≤ leAt b 6 1) && decide (leAt b 6 1 ≤ 16)),
   at_ 7 (leAt b 7 1 == 0), at_ 8 (decide (leAt b 8 4 ≤ 4096)), at_ 12 (decide (leAt b 12 4 ≤ 16777215)),
   at_ 16 (leAt b 16 4 == (crc32c (b.drop 64)).toNat), at_ 20 (leAt b 20 4 == len), at_ 24 (leAt b 24 40 == 0)]

/-- Directory entry of part j: offset, length, states, start, accept entries, classes. -/
def partDir (b : List Byte) (j : Nat) : Nat × Nat × Nat × Nat × Nat × Nat :=
  let o := 64 + 16 * j
  (leAt b o 4, leAt b (o + 4) 4, leAt b (o + 8) 2 + 1, leAt b (o + 10) 2, leAt b (o + 12) 2, leAt b (o + 14) 2 + 1)

/-- Bytes of the pool of a part. -/
def poolLen (len states accepts : Nat) : Nat := len - (256 + 8 * states + 8 * accepts)

/-- Checks of a part's directory entry. -/
def dirChecks (b : List Byte) (len j : Nat) : List Check :=
  let (o, l, n, start, acc, cls) := partDir b j
  let at_ := fun (k : Nat) (ok : Bool) => ({ ok := ok, part := j, off := 64 + 16 * j + k } : Check)
  [at_ 0 (o % 8 == 0), at_ 4 (decide (o + l ≤ len) && decide (256 + 8 * n + 8 * acc ≤ l) && poolLen l n acc % 4 == 0
      && decide (poolLen l n acc ≤ 5242880)),
   at_ 10 (decide (start < n)), at_ 14 (decide (cls ≤ 256))]

/-- An accept list from an index ends within its table. -/
def listEnds (b : List Byte) (base acc i : Nat) : Bool :=
  (List.range acc).any (fun j => decide (i ≤ j + 1) && leAt b (base + 8 * j) 8 % 2 == 1)

/-- Checks of the rows of one state. -/
def stateChecks (b : List Byte) (j i : Nat) : List Check :=
  let (o, l, n, _, acc, cls) := partDir b j
  let so := o + 256 + 8 * i
  let w := leAt b so 8
  let pool := o + 256 + 8 * n + 8 * acc
  let words := poolLen l n acc / 4
  let row := w / 2 ^ 32 % 2 ^ 24
  let k := w / 2 ^ 56 % 16
  let at_ := fun (p : Nat) (ok : Bool) => ({ ok := ok, part := j, off := p } : Check)
  let kind := w / 2 ^ 62
  [at_ so (decide (w % 2 ^ 16 ≤ acc) && (w % 2 ^ 16 == 0 || listEnds b (o + 256 + 8 * n) acc (w % 2 ^ 16))),
   at_ (so + 2) (kind != 1 || decide (w / 2 ^ 16 % 2 ^ 16 < n)),
   at_ (so + 4) (if kind == 0 then decide (row + (cls + 1) / 2 ≤ words) else decide (row + k ≤ words)),
   at_ (so + 7) (decide (kind ≤ 1) && w / 2 ^ 60 % 4 == 0)] ++
  (if kind = 0 then (List.range cls).map fun c => at_ (pool + 4 * row + 2 * c) (decide (leAt b (pool + 4 * row + 2 * c) 2 < n))
   else (List.range k).map fun c =>
    let x := leAt b (pool + 4 * (row + c)) 4
    at_ (pool + 4 * (row + c)) (decide (x / 2 ^ 16 < n) && x / 2 ^ 8 % 2 ^ 8 == 0 && decide (x % 2 ^ 8 < cls)))

/-- Checks of a part (Table 13-7). -/
def partChecks (b : List Byte) (j : Nat) : List Check :=
  let (o, _, n, _, acc, cls) := partDir b j
  ((List.range 256).map fun i => { ok := decide (leAt b (o + i) 1 < cls), part := j, off := o + i }) ++
    (List.range n).flatMap (stateChecks b j) ++
    ((List.range acc).map fun i =>
      let p := o + 256 + 8 * n + 8 * i
      { ok := leAt b p 3 / 2 % 2 ^ 23 == 0, part := j, off := p })

/-- The first check that fails: header, then directory, then parts. -/
def firstBad (b : List Byte) (len : Nat) : Option Check :=
  match (headerChecks b len).find? (fun c => !c.ok) with
  | some c => some c
  | none =>
    let p := leAt b 6 1
    match ((List.range p).flatMap (dirChecks b len)).find? (fun c => !c.ok) with
    | some c => some c
    | none => ((List.range p).flatMap (partChecks b)).find? (fun c => !c.ok)

/-- Part j of an image that passed its checks. -/
def loadPart (b : List Byte) (j : Nat) : AutoPart :=
  let (o, l, n, start, acc, cls) := partDir b j
  { classMap := (b.drop o).take 256, start := start, classes := cls
    states := (List.range n).map fun i => BitVec.ofNat 64 (leAt b (o + 256 + 8 * i) 8)
    accepts := (List.range acc).map fun i => BitVec.ofNat 64 (leAt b (o + 256 + 8 * n + 8 * i) 8)
    pool := (b.drop (o + 256 + 8 * n + 8 * acc)).take (poolLen l n acc) }

/-- Engines of a room's groups that are free and not retired, ascending; those that descriptors other than `e` are to take are
not free. -/
def freeEngines (s : State) (room : RoomId) (e : Option Nat) : List Nat :=
  (List.range 256).filter fun k => s.filt.groups.contains (k / 8, room) && !isRetired s 0x08 k
    && !s.filt.automata.any (fun a => a.engines.contains k)
    && !s.ledger.entries.any (fun x => some x.n != e && x.result.isNone && descOp x.desc == 0x73 && x.claims.contains k)

/-- Takes gangs of `p` engines: within the first caravan die that has room, else the lowest free. -/
def takeGangs (p : Nat) : Nat → List Nat → List Nat
  | 0, _ => []
  | r + 1, free =>
    let gang := match (List.range 4).find? (fun d => decide ((free.filter (fun e => e / 64 == d)).length ≥ p)) with
      | some d => (free.filter (fun e => e / 64 == d)).take p
      | none => free.take p
    gang ++ takeGangs p r (free.filter (fun e => !gang.contains e))

/-! ### Steps of a lane (R307) -/

/-- The next state of a part on a byte. -/
def autoStep (p : AutoPart) (st : Nat) (b : Byte) : Nat :=
  let c := (p.classMap.getD b.toNat 0).toNat
  let w := p.states.getD st 0
  let row := bitsAt w 32 24
  if bitsAt w 62 2 = 0 then leAt p.pool (4 * row + 2 * c) 2
  else (List.range (bitsAt w 56 4)).foldl (fun n j =>
    let x := leAt p.pool (4 * (row + j)) 4
    if x % 256 = c then x / 2 ^ 16 else n) (bitsAt w 16 16)

/-- The accept list from a 1-based index: patterns and priorities. -/
def acceptList (p : AutoPart) : Nat → Nat → List (Nat × Nat)
  | 0, _ => []
  | k + 1, a =>
    if a = 0 then []
    else
      let w := p.accepts.getD (a - 1) 0
      (bitsAt w 40 24, bitsAt w 24 16) :: (if bitsAt w 0 1 = 1 then [] else acceptList p k (a + 1))

/-- A match: offset of its last byte, pattern and priority. -/
structure Match where
  off : Nat
  pattern : Nat
  prio : Nat
  deriving DecidableEq, Repr

/-- One lane of a part over bytes from offset `o` on. -/
def lane (p : AutoPart) : Nat → Nat → List Byte → List Match
  | _, _, [] => []
  | st, o, b :: l =>
    let n := autoStep p st b
    ((acceptList p p.accepts.length (bitsAt (p.states.getD n 0) 0 16)).map fun x => { off := o, pattern := x.1, prio := x.2 })
      ++ lane p n (o + 1) l

/-- All parts of an automaton over one record that starts at offset `o`. -/
def scanRecord (a : Automaton) (o : Nat) (l : List Byte) : List Match := a.parts.flatMap (fun p => lane p p.start o l)

/-- Cuts bytes at each delimiter and at each tile boundary of the address `g + offset`: (offset, bytes) of each record. -/
def cutRecords (delim : Nat) (g : Nat) : Nat → Nat → List Byte → List Byte → List (Nat × List Byte)
  | _, start, cur, [] => [(start, cur.reverse)]
  | o, start, cur, b :: l =>
    let edge := decide ((g + o) % 65536 = 0) && decide (o ≠ start)
    let (pre, start, cur) := if edge then ([(start, cur.reverse)], o, []) else ([], start, cur)
    if b.toNat = delim then pre ++ (start, cur.reverse) :: cutRecords delim g (o + 1) (o + 1) [] l
    else pre ++ cutRecords delim g (o + 1) start (b :: cur) l

/-- The best match of a record: highest priority, lowest pattern, lowest offset. -/
def bestMatch : List Match → Option Match
  | [] => none
  | m :: l => match bestMatch l with
    | none => some m
    | some b =>
      if m.prio > b.prio ∨ (m.prio = b.prio ∧ (m.pattern < b.pattern ∨ (m.pattern = b.pattern ∧ m.off ≤ b.off))) then some m else some b

/-- Matches of a range: span mode scans it whole; record mode record by record, with one best match of each if asked. -/
def scanRange (a : Automaton) (recordMode best : Bool) (delim g : Nat) (l : List Byte) : List Match :=
  if !recordMode then scanRecord a 0 l
  else (cutRecords delim g 0 0 [] l).flatMap fun r =>
    let ms := scanRecord a r.1 r.2
    if best then (bestMatch ms).toList else ms

/-- In the order of R312: ascending end, then pattern. -/
def sortMatches (l : List Match) : List Match :=
  l.mergeSort (fun a b => decide (a.off < b.off) || (a.off == b.off && decide (a.pattern ≤ b.pattern)))

/-- A match record (Table 13-10). -/
def matchBytes (gfa pattern flags prio : Nat) : List Byte :=
  leBytes 8 gfa ++ leBytes 3 pattern ++ [BitVec.ofNat 8 flags] ++ leBytes 2 prio ++ [0, 0]

end Sys2Proof.Machine
end

