-- ==== Sys2Proof/Machine/CollOps.lean ====
section
/-!
DEFINITION. Machine/CollOps.lean: collective contexts, rounds and chunks (R254 to R272) as operations that the collective
commands share.
-/

namespace Sys2Proof.Machine

/-! ### Contexts -/

def updCtx (s : State) (c : Context) (f : Context → Context) : State :=
  { s with coll := { s.coll with ctxs := mapIf (fun x => x.lead == c.lead && x.ctx == c.ctx) f s.coll.ctxs } }

def updRound (s : State) (c : Context) (f : Round → Round) : State :=
  updCtx s c fun x => { x with round := x.round.map f }

/-- The rounds of a context that are not at an end. -/
def openRounds (c : Context) : List Round := (c.round.toList ++ c.waiting).filter (fun r => !r.ended)

/-- The round of a context with a number. -/
def roundAt (c : Context) (n : BitVec 32) : Option Round := (c.round.toList ++ c.waiting).find? (fun r => r.params.round == n)

def updRoundAt (s : State) (c : Context) (n : BitVec 32) (f : Round → Round) : State :=
  updCtx s c fun x => { x with
    round := x.round.map (fun r => if r.params.round = n then f r else r)
    waiting := mapIf (fun r => r.params.round == n) f x.waiting }

/-- A context as it stands now. -/
def ctxNow (s : State) (c : Context) : Context := (contextOf s c.lead c.ctx.toNat).getD c

/-- The switches of a context other than this one. -/
def otherSwitches (s : State) (c : Context) : List SwitchId :=
  (((List.range c.nSwitches).map (Config.ctxSwitch (c.lead.toNat * 1024 + c.ctx.toNat))).filter (· != selfId s)).eraseDups

/-- Bits of an element of a contribution, elements of a chunk (R255), and mode of the exact sums. -/
def ctxBits (c : Context) : Nat := if c.type = 0xB then 4 else tyWidth c.type.toNat
def ctxChunk (c : Context) : Nat := c.chunkBytes * 8 / max 1 (ctxBits c)
def isMx (t : Nat) : Bool := decide (9 ≤ t) && decide (t ≤ 11)
def ctxMode (c : Context) : Nat := if isMx c.type.toNat then 1 else accMode c.type.toNat

/-- Chunks of a run, the elements of chunk k, and the root of it. -/
def runChunks (c : Context) (r : Round) : Nat := (r.params.count + ctxChunk c - 1) / max 1 (ctxChunk c)
def chunkLen (c : Context) (r : Round) (k : Nat) : Nat := min (ctxChunk c) (r.params.count - k * ctxChunk c)
def chunkRoot (c : Context) (k : Nat) : SwitchId := c.roots.getD (k % max 1 c.roots.length) c.lead

/-- Chunks of a run that a root has. -/
def ownChunks (c : Context) (r : Round) (x : SwitchId) : Nat :=
  let n := runChunks c r
  let m := max 1 c.roots.length
  ((List.range m).map fun i => if c.roots.getD i c.lead = x then (n + m - 1 - i) / m else 0).sum

/-- The part of a member's segment that lies in chunk k: first element within the chunk, elements (R266). -/
def segPart (c : Context) (r : Round) (i k : Nat) : Nat × Nat :=
  let lo := max (i * r.params.count / max 1 c.total) (k * ctxChunk c)
  let hi := min ((i + 1) * r.params.count / max 1 c.total) (k * ctxChunk c + chunkLen c r k)
  (lo - k * ctxChunk c, hi - lo)

/-- Elements that a member contributes to chunk k. -/
def expected (c : Context) (r : Round) (i k : Nat) : Nat :=
  if r.params.op ≤ 1 then chunkLen c r k
  else if r.params.op = 2 then (segPart c r i k).2
  else if i = r.params.rootMember then chunkLen c r k else 0

/-! ### Packets (R258) -/

/-- A collective packet of this switch. -/
def collPacket (s : State) (c : Context) (r : Round) (opcode : BitVec 8) (vc : BitVec 3) (dst : AgentId) (chunk member first : Nat)
    (poison : Bool) (data : List Byte) : Packet :=
  let w2 := fieldOf 48 16 c.lead.toNat ||| fieldOf 38 10 c.ctx.toNat ||| fieldOf 0 32 r.params.round.toNat
  let w3 := fieldOf 28 36 chunk ||| fieldOf 16 12 member ||| fieldOf 0 16 first
  let p := mkPacket s opcode vc 0 (BitVec.ofNat 2 r.params.cls) c.room dst (BitVec.ofNat 20 chunk) w2 w3 data
  { p with poison := poison }

/-- Sends a packet to each other switch of a context. -/
def toSwitches (s : State) (c : Context) (r : Round) (opcode : BitVec 8) (vc : BitVec 3) (chunk member first : Nat) (poison : Bool)
    (data : List Byte) : State :=
  (otherSwitches s c).foldl (fun s x => emit s (collPacket s c r opcode vc (switchAgentId s x) chunk member first poison data)) s

/-! ### Partial elements (R260) -/

/-- Trailing zero bits of a number, at most `fuel`. -/
def trailing : Nat → Nat → Nat
  | 0, _ => 0
  | f + 1, v => if v % 2 = 1 then 0 else trailing f (v / 2) + 1

/-- Bytes that hold a number in two's complement. -/
def signedBytes (v : Int) : Nat := (bitLen (if v < 0 then (-v - 1).toNat else v.toNat) + 8) / 8

/-- A state as a partial element. -/
def partialOf (a : Acc) : List Byte :=
  let v := a.value.toInt
  let sh := if v = 0 then 0 else trailing 319 v.natAbs
  let q := v / (2 ^ sh : Int)
  let n := if v = 0 then 0 else signedBytes q
  let b := fun (x : Bool) (k : Nat) => if x then 2 ^ k else 0
  let h := b a.poison 23 + b a.nan 22 + b a.pinf 21 + b a.ninf 20 + b a.nz 19 + n * 2 ^ 13 + sh * 16
  leBytes 3 h ++ leBytes n (q % (2 ^ (8 * n) : Int)).toNat

/-- Bytes of a count in a COLL_PART. -/
def countBytes (mode : Nat) : Nat := if mode = 1 then 6 else 2

/-- Partial elements of a packet: the elements, then one count for each. -/
def partialPayload (mode : Nat) (l : List Acc) : List Byte :=
  l.flatMap partialOf ++ l.flatMap (fun a => leBytes (countBytes mode) a.count.toNat)

/-- Reads partial elements until only their counts are left. -/
def readPartials (mode : Nat) : Nat → List Byte → List Acc → List Acc
  | 0, _, _ => []
  | f + 1, b, l =>
    if b.length = l.length * countBytes mode then
      l.reverse.zipIdx.map fun x =>
        let n := leAt b (countBytes mode * x.2) (countBytes mode)
        { x.1 with count := BitVec.ofNat 64 n, limit := decide (n > accLimit mode) }
    else if b.length < 3 then []
    else
      let h := leAt b 0 3
      let n := h / 2 ^ 13 % 64
      let v := signedOf (8 * max 1 n) (leAt b 3 n) * (2 ^ (h / 16 % 512) : Int)
      let bit := fun (k : Nat) => h / 2 ^ k % 2 == 1
      let a : Acc := { value := accValue mode (if n = 0 then 0 else v), mode := mode, poison := bit 23, nan := bit 22, pinf := bit 21
                       ninf := bit 20, nz := bit 19 }
      readPartials mode f (b.drop (3 + n)) (a :: l)

/-- Partial elements that one packet surely holds. -/
def partialsPer (mode : Nat) : Nat := 4096 / (accWidth mode / 8 + 3 + countBytes mode)

/-! ### The leaf (R261, R262, R267) -/

def leafOf (r : Round) (k : Nat) : LeafChunk := (r.leaf.find? (fun x => x.k == k)).getD { k := k }
def putLeaf (r : Round) (x : LeafChunk) : Round := { r with leaf := r.leaf.filter (fun y => y.k != x.k) ++ [x] }
def rootOf (r : Round) (k : Nat) : RootChunk := (r.root.find? (fun x => x.k == k)).getD { k := k }
def putRoot (r : Round) (x : RootChunk) : Round := { r with root := r.root.filter (fun y => y.k != x.k) ++ [x] }

/-- Puts a list of states over another from a position on. -/
def mergeAt : List Acc → Nat → List Acc → List Acc
  | l, _, [] => l
  | [], _, _ => []
  | a :: l, 0, b :: m => accMerge a b :: mergeAt l 0 m
  | a :: l, n + 1, m => a :: mergeAt l n m

/-- The states of a chunk, empty at first. -/
def fullAccs (n : Nat) (l : List Acc) : List Acc := if l.isEmpty then List.replicate n {} else l

/-- A contribution as states of one contribution each; none of it decodes: zeros with poison (R271). -/
def contribution (c : Context) (len : Nat) (p : CollPkt) : List Acc :=
  if c.coded then
    match decodeChunk c.tableBytes c.type.toNat (ctxChunk c) p.data with
    | some l => ((l.take (len - p.first))).map fun x => accAddNum {} x p.poison
    | none => List.replicate (len - p.first) (accAddNum {} (.fin false 0 0) true)
  else
    let w := ctxBits c
    (List.range (min (p.data.length * 8 / max 1 w) (len - p.first))).map fun i =>
      (accAdd {} c.type.toNat (leAt p.data (i * w / 8) (w / 8)) p.poison).1

/-- Elements of a contribution that is not added. -/
def copyCount (c : Context) (len : Nat) (p : CollPkt) : Nat :=
  if c.coded then min (leAt p.data 4 2) (len - p.first) else min (p.data.length * 8 / max 1 (ctxBits c)) (len - p.first)

/-- Adds a contribution to a chunk's state at its leaf. -/
def addContribution (c : Context) (r : Round) (p : CollPkt) (x : LeafChunk) : LeafChunk :=
  let len := chunkLen c r p.chunk
  if r.params.op ≤ 1 then
    let l := contribution c len p
    { x with seen := x.seen ++ [(p.member, p.first, l.length)], accs := mergeAt (fullAccs len x.accs) p.first l
             poison := x.poison || p.poison || l.any (fun a => a.poison) }
  else
    let n := copyCount c len p
    { x with seen := x.seen ++ [(p.member, p.first, n)], pieces := x.pieces ++ [(p.first, n, p.data)], poison := x.poison || p.poison }

/-- Elements of a member that a chunk has received. -/
def received (x : LeafChunk) (i : Nat) : Nat := ((x.seen.filter (fun y => y.1 == i)).map (fun y => y.2.2)).sum

/-- Every local member has contributed its part of the chunk. -/
def leafDone (c : Context) (r : Round) (x : LeafChunk) : Bool :=
  c.members.any (fun m => decide (expected c r m.2 x.k > 0)) && c.members.all (fun m => decide (expected c r m.2 x.k ≤ received x m.2))

/-- The mark moves up over acknowledged chunks. -/
def moveMark : Nat → Round → Round
  | 0, r => r
  | f + 1, r =>
    if (leafOf r r.mark).acked then moveMark f { r with leaf := r.leaf.filter (fun y => y.k != r.mark), mark := r.mark + 1 } else r

/-- K of the round, as the go object tells it at a leaf (R264). -/
def goValue (s : State) (c : Context) : Option Nat :=
  match c.go with
  | none => none
  | some g => match syncObjOf s g with
    | some o => some o.value.toNat
    | none => some 0

/-- The round has been accepted, as far as this leaf can see: its go object has reached it (R261, R262). -/
def roundLive (s : State) (c : Context) (r : Round) : Bool :=
  if c.lead = selfId s then r.accepted
  else match goValue s c with
    | some v => decide (r.params.round.toNat ≤ v / 2 ^ 32)
    | none => true

def windowOf (s : State) (c : Context) (r : Round) : Nat :=
  if c.lead = selfId s then r.kRun else match goValue s c with
    | some v => min c.k (v % 2 ^ 32)
    | none => c.k

/-- Tells the members the mark when it has advanced by K ÷ 4, or the run's last chunk is acknowledged (R262). -/
def tellMark (s : State) (c : Context) : State :=
  match (ctxNow s c).round with
  | none => s
  | some r =>
    if r.mark > r.markTold ∧ (4 * (r.mark - r.markTold) ≥ windowOf s c r ∨ r.mark = runChunks c r) then
      let s := c.members.foldl (fun s m => emit s (collPacket s c r 0x94 vcRsp m.1 r.mark 0 0 false [])) s
      updRound s c fun r => { r with markTold := r.mark }
    else s

/-- Releases the entry of a switch's share. -/
def dropShare (s : State) (r : Round) : State :=
  match r.share with
  | none => s
  | some e =>
    let s := disown (mirrorRelease (unbook s e) e) (.work e)
    { s with ledger := { s.ledger with entries := s.ledger.entries.filter (fun x => x.n != e) } }

/-- A switch's share is done once every chunk is acknowledged and its own chunks are complete. -/
def settleShare (s : State) (c : Context) : State :=
  match (ctxNow s c).round with
  | none => s
  | some r =>
    if r.share.isSome ∧ r.mark ≥ runChunks c r ∧ ownChunks c r (selfId s) ≤ r.rootDone then
      updRound (dropShare s r) c fun r => { r with share := none }
    else s

/-- A chunk's acknowledgement at a leaf: its state is freed and the mark advances. -/
def leafAck (s : State) (c : Context) (k : Nat) : State :=
  let s := updRound s c fun r =>
    if k < r.mark ∨ k ≥ runChunks c r then r
    else
      let r := putLeaf r { leafOf r k with acked := true, accs := [], pieces := [] }
      moveMark (r.leaf.length + 1) r
  settleShare (tellMark s c) c

/-! ### Results (R259, R266, R272) -/

/-- Elements of a result packet of 4,096 B. -/
def resultPer (bits : Nat) : Nat := 4096 * 8 / max 1 bits

/-- Bytes of elements of a type. -/
def elementBytes (t : Nat) (l : List Nat) : List Byte :=
  if tyWidth t = 4 then symbolBytes 4 l else l.flatMap (leBytes (tyWidth t / 8))

/-- Rounds exact sums to a result type: packets of (first element, bytes); MX types as coded chunks. -/
def resultPieces (c : Context) (rt : Nat) (from_ : Nat) (l : List Acc) : List (Nat × List Byte) :=
  if isMx rt then [(from_, encodeChunk c.tableBytes rt c.resultTable (l.map accNum))]
  else
    let per := resultPer (tyWidth rt)
    (List.range ((l.length + per - 1) / per)).map fun i =>
      (from_ + per * i, elementBytes rt (((l.drop (per * i)).take per).map fun a => (accRound a rt).1))

/-- Element bytes of a result at its place in memory: MX elements without their scales. -/
def memoryBytes (rt : Nat) (l : List Acc) : List Byte :=
  if isMx rt then
    let v := padBlocks (l.map accNum)
    let els := (List.range (v.length / 32)).flatMap fun i => (mxBlock rt ((v.drop (32 * i)).take 32)).2
    symbolBytes (mxBits rt) (els.take l.length)
  else elementBytes rt (l.map fun a => (accRound a rt).1)

/-- Passes a result on to the local members: one member's segment, or all of them by the context's group (R259). -/
def toMembers (s : State) (c : Context) (r : Round) (chunk member first : Nat) (poison : Bool) (data : List Byte) : State :=
  if r.params.op = 1 then
    match c.members.find? (fun m => m.2 == member) with
    | some m => emit s (collPacket s c r 0x92 5 m.1 chunk member first poison data)
    | none => s
  else if c.members.isEmpty then s
  else emit s { collPacket s c r 0x92 5 (BitVec.ofNat 18 c.group) chunk member first poison data with mcast := true }

/-- What a completed chunk sends: (member, first element, bytes). -/
def chunkResults (c : Context) (r : Round) (x : RootChunk) : List (Nat × Nat × List Byte) :=
  let rt := r.params.resultType.toNat
  if r.params.op = 0 then (resultPieces c rt 0 x.accs).map fun y => (0, y.1, y.2)
  else if r.params.op = 1 then
    (List.range c.total).flatMap fun i =>
      let (f, n) := segPart c r i x.k
      if n = 0 then [] else (resultPieces c rt f ((x.accs.drop f).take n)).map fun y => (i, y.1, y.2)
  else x.pieces.map fun y => (0, y.1, y.2.2)

/-- Element bytes of `n` copied elements at their place in memory: a coded chunk is decoded, without its scales; one that
cannot be decoded gives zeros (R266, R271). -/
def copyBytes (c : Context) (n : Nat) (b : List Byte) : List Byte :=
  if !c.coded then b
  else symbolBytes (mxBits c.type.toNat) (match chunkSymbols c.tableBytes c.type.toNat (ctxChunk c) b with
    | some l => l.take n
    | none => List.replicate n 0)

/-- Writes a completed chunk at the result GFA. -/
def writeResult (s : State) (c : Context) (r : Round) (x : RootChunk) : State :=
  let e := (r.e.getD (r.share.getD 0))
  let put := fun (s : State) (bits first : Nat) (b : List Byte) =>
    (ownWrite s e c.room (r.params.resultGfa + BitVec.ofNat 64 ((x.k * ctxChunk c + first) * bits / 8)) b).1
  if r.params.op ≤ 1 then put s (tyWidth r.params.resultType.toNat) 0 (memoryBytes r.params.resultType.toNat x.accs)
  else x.pieces.foldl (fun s y => put s (ctxBits c) y.1 (copyBytes c y.2.1 y.2.2)) s

/-- A chunk is complete at its root: every contribution of every member has been merged. -/
def rootDoneNow (c : Context) (r : Round) (x : RootChunk) : Bool :=
  if r.params.op ≤ 1 then !x.accs.isEmpty && x.accs.all (fun a => decide (c.total ≤ a.count.toNat))
  else decide (chunkLen c r x.k ≤ (x.pieces.map (fun y => y.2.1)).sum)

/-! ### The end of a round (R268) -/

/-- A round's state is discarded at this switch. -/
def endHere (s : State) (c : Context) (r : Round) : State :=
  let n := r.params.round
  let s := dropShare s r
  updCtx s c fun x => { x with
    early := x.early.filter (fun p => p.round != n)
    earlyParts := x.earlyParts.filter (fun p => p.1.round != n)
    round := x.round.map (fun r => if r.params.round = n then { r with ended := true, leaf := [], share := none } else r)
    waiting := x.waiting.filter (fun r => r.params.round != n) }

/-- Chunks completed and poisoned as the roots have reported. -/
def reported (r : Round) : Nat × Nat := ((r.reports.map (fun x => x.2.1)).sum, (r.reports.map (fun x => x.2.2)).sum)

/-- A run ends before it is complete: "run ended" to every switch, and the result (R197, R268). -/
def endRound (s : State) (c : Context) (n : BitVec 32) (status : Stat) : State :=
  match roundAt (ctxNow s c) n with
  | none => s
  | some r =>
    if r.ended then s
    else
      let s := toSwitches s c r 0x93 vcRsp 0 0xFFF 0 false []
      let s := endHere s c r
      match r.e with
      | some e =>
        let (n, bad) := reported r
        let s := updLedger s e fun y => { y with progress := 10000 * n / max 1 (runChunks c r) }
        finishStatus s e status n bad
      | none => s

/-- The run completes once every root has reported all of its chunks. -/
def checkRun (s : State) (c : Context) : State :=
  match (ctxNow s c).round with
  | none => s
  | some r =>
    let all := c.roots.eraseDups.all fun x =>
      r.reports.any (fun y => y.1 == switchAgentId s x && decide (ownChunks c r x ≤ y.2.1)) || ownChunks c r x == 0
    if r.accepted && !r.ended && all then
      let (n, bad) := reported r
      let s := endHere s c r
      match r.e with
      | some e => finishBy s e (if bad > 0 then 0x01 else 0x00) n bad
      | none => s
    else s

/-- A root's count report of a round reaches the lead. -/
def takeReport (s : State) (c : Context) (round : BitVec 32) (a : AgentId) (n bad : Nat) : State :=
  checkRun (updRoundAt s c round fun r => { r with reports := r.reports.filter (fun y => y.1 != a) ++ [(a, n, bad)] }) c

/-! ### The root (R261, R267) -/

/-- After a chunk completes at its root: results, acknowledgements, the final count report. -/
def completeChunk (s : State) (c : Context) (k : Nat) : State :=
  match (ctxNow s c).round with
  | none => s
  | some r =>
    let x := rootOf r k
    let out := chunkResults c r x
    let s := if r.params.resultGfa ≠ 0 then writeResult s c r x
      else out.foldl (fun s y => toMembers (toSwitches s c r 0x92 5 k y.1 y.2.1 x.poison y.2.2) c r k y.1 y.2.1 x.poison y.2.2) s
    let s := toSwitches s c r 0x93 vcRsp k 0 0 false []
    let done := r.rootDone + 1
    let bad := r.rootPoisoned + (if x.poison then 1 else 0)
    let s := updRound s c fun r =>
      { putRoot r { x with complete := true, accs := [], pieces := [], result := out, until_ := s.time.now + dedupeWindow s } with
        rootDone := done, rootPoisoned := bad }
    let s := leafAck s c k
    if done < ownChunks c r (selfId s) then s
    else if c.lead = selfId s then takeReport s c r.params.round (selfAgent s) done bad
    else emit s (collPacket s c r 0x93 vcRsp (switchAgentId s c.lead) done 0xFFE (min 65535 bad) false [])

/-- A partial, or contributions unchanged, of a leaf is merged at the root. -/
def mergePart (s : State) (c : Context) (k : Nat) (leaf : SwitchId) (first : Nat) (accs : List Acc)
    (pieces : List (Nat × Nat × List Byte)) (poison : Bool) : State :=
  match (ctxNow s c).round with
  | none => s
  | some r =>
    let x := rootOf r k
    if x.complete then
      (if leaf = selfId s then leafAck s c k
       else emit s (collPacket s c r 0x93 vcRsp (switchAgentId s leaf) k 0 0 false []))
    else if x.leaves.contains (leaf, first) then updCtx s c fun c => { c with duplicates := c.duplicates + 1 }
    else
      let x : RootChunk := { x with
        leaves := x.leaves ++ [(leaf, first)]
        accs := if r.params.op ≤ 1 then mergeAt (fullAccs (chunkLen c r k) x.accs) first accs else []
        pieces := x.pieces ++ pieces, poison := x.poison || poison || accs.any (fun a => a.poison) }
      let s := updRound s c fun r => putRoot r x
      if rootDoneNow c r x then completeChunk s c k else s

/-- A COLL_PART of a round that executes here. -/
def takePart (s : State) (c : Context) (r : Round) (p : CollPkt) (leaf : SwitchId) : State :=
  let accs := if r.params.op ≤ 1 then readPartials (ctxMode c) (p.data.length + 1) p.data [] else []
  let pieces := if r.params.op ≤ 1 then [] else [(p.first, copyCount c (chunkLen c r p.chunk) p, p.data)]
  mergePart s c p.chunk leaf p.first accs pieces p.poison

/-- The leaf's partial goes to the chunk's root once its last local contribution is in. -/
def sendPart (s : State) (c : Context) (k : Nat) : State :=
  match (ctxNow s c).round with
  | none => s
  | some r =>
    let x := leafOf r k
    let s := updRound s c fun r => putLeaf r { leafOf r k with sent := true }
    let root := chunkRoot c k
    if root = selfId s then mergePart s c k (selfId s) 0 x.accs x.pieces x.poison
    else if r.params.op ≤ 1 then
      let per := partialsPer (ctxMode c)
      (List.range ((x.accs.length + per - 1) / max 1 per)).foldl (fun s i =>
        emit s (collPacket s c r 0x91 5 (switchAgentId s root) k 0 (per * i) x.poison
          (partialPayload (ctxMode c) ((x.accs.drop (per * i)).take per)))) s
    else x.pieces.foldl (fun s y => emit s (collPacket s c r 0x91 5 (switchAgentId s root) k 0 y.1 x.poison y.2.2)) s

/-- A contribution brings an element of its member that has been received (R261). -/
def bringsAgain (c : Context) (r : Round) (x : LeafChunk) (p : CollPkt) : Bool :=
  x.seen.any fun y => y.1 == p.member && (y.2.1 == p.first ||
    (decide (y.2.1 < p.first + copyCount c (chunkLen c r p.chunk) p) && decide (p.first < y.2.1 + y.2.2)))

/-- A contribution of an accepted round at its leaf (R261): one that brings an element of its member again is a duplicate. -/
def takeContribution (s : State) (c : Context) (r : Round) (p : CollPkt) : State :=
  let x := leafOf r p.chunk
  if r.ended ∨ p.chunk < r.mark then updCtx s c fun c => { c with lateData := c.lateData + 1 }
  else if p.chunk ≥ runChunks c r ∨ p.first ≥ chunkLen c r p.chunk then { s with coll := { s.coll with discarded := s.coll.discarded + 1 } }
  else if x.acked ∨ x.sent ∨ bringsAgain c r x p then
    updCtx s c fun c => { c with duplicates := c.duplicates + 1 }
  else
    let x := addContribution c r p x
    let s := updRound s c fun r => putLeaf r x
    if leafDone c r x then sendPart s c p.chunk else s

/-- Contributions that were held are taken once their round is accepted. -/
def drainEarly (s : State) (c : Context) : State :=
  let c := ctxNow s c
  match c.round with
  | some r =>
    if roundLive s c r && c.early.any (fun p => p.round == r.params.round) then
      let ps := c.early.filter (fun p => p.round == r.params.round)
      let s := updCtx s c fun c => { c with early := c.early.filter (fun p => p.round != r.params.round) }
      ps.foldl (fun s p => match (ctxNow s c).round with
        | some r => takeContribution s c r p
        | none => s) s
    else s
  | none => s

/-- Partials that were held are taken once their round has begun here. -/
def drainParts (s : State) (c : Context) : State :=
  let c := ctxNow s c
  match c.round with
  | some r =>
    let ps := c.earlyParts.filter (fun p => p.1.round == r.params.round)
    if ps.isEmpty then s
    else
      let s := updCtx s c fun c => { c with earlyParts := c.earlyParts.filter (fun p => p.1.round != r.params.round) }
      ps.foldl (fun s p => takePart s c r p.1 p.2) s
  | none => s

/-- Whether the next round of a context may begin here: at the lead its run is accepted and may start (R207), and the round
before it is at an end; elsewhere this switch's share of the round before is done. -/
def mayBegin (s : State) (c : Context) (r : Round) : Bool :=
  if c.lead = selfId s then
    !c.round.any (fun x => !x.ended) && r.accepted && (match r.e with
      | some e => (match ledgerEntry s e with
        | some en => isRunning s && (en.started || canStart s en)
        | none => false)
      | none => false)
  else !c.round.any (fun x => !x.ended && x.share.isSome)

/-- The next round begins: runs of a context execute one at a time, in acceptance order (R263). -/
def beginNext (s : State) (c : Context) : State :=
  let c := ctxNow s c
  match c.waiting with
  | [] => s
  | r :: rest =>
    if mayBegin s c r then
      let s := updCtx s c fun c => { c with past := c.round, round := some r, waiting := rest }
      let s := match r.e with
        | some e => startEntry s e
        | none => s
      checkRun (drainEarly (drainParts s c) c) c
    else s

/-- Every context's next round, and its held contributions. -/
def settleColls (s : State) : State := s.coll.ctxs.foldl (fun s c => drainEarly (beginNext s c) c) s

/-! ### Reservation (R264, R265) -/

/-- What a switch's share of a run needs (R265, R274). -/
def shareDemand (s : State) (c : Context) (p : CollParams) : Demand :=
  let n := c.members.length
  let w := ctxBits c
  let rw := tyWidth p.resultType.toNat
  let ports := (c.members.flatMap (fun m => portsToward s c.room c.group m.1)).eraseDups
  let roots := c.roots.filter (· != selfId s)
  let links := (roots.flatMap (portsTo s c.room)).eraseDups
  let mine := (c.roots.filter (· == selfId s)).length
  let pe := accWidth (ctxMode c) / 8 + 3
  let perRoot := p.count / max 1 c.roots.length
  let adds := n * p.count + mine * (c.nSwitches - 1) * perRoot
  { phases := [[{ vol := n * p.count * w / 8, sup := .port ports false }, { vol := (adds + 63) / 64, sup := .clusters },
      { vol := (if n = 0 then 0 else roots.length * perRoot * pe), sup := .port links true },
      { vol := n * p.count * rw / 8, sup := .port ports true },
      { vol := mine * perRoot * rw / 8 * (c.nSwitches - 1), sup := .port links true }].filter (fun t => t.vol != 0)]
    from_ := c.clusters, clusters := c.clusters.length, links := links
    size := p.count * w / 8, floor := p.floor }

/-- The test of a switch's own share: its plan, or the reason and the earliest deadline. -/
def testShare (s : State) (c : Context) (p : CollParams) (tA : Nat) : Plan ⊕ (Nat × Nat) :=
  let dm := shareDemand s c p
  if s.hlth.state == .retiring || mirrorTarget s == 0 then .inr (7, 0)
  else if s.boot.roomResets.contains c.room then .inr (6, 0)
  else if p.cls = 1 then (match searchFloor s 5 c.room dm tA with
    | some q => .inl q
    | none => .inr (floorReason s c.room dm tA, 0))
  else match searchGuaranteed s 5 c.room dm tA (some p.promise) with
    | some q => .inl q
    | none => .inr (shortReason s c.room dm tA p.promise, earliestDeadline s c.room dm tA)

/-- The context whose run an entry is, at the lead, and the run's round. -/
def roundOf (s : State) (e : Nat) : Option (Context × Round) :=
  s.coll.ctxs.findSome? fun c => ((openRounds c).find? (fun r => r.e == some e)).map (fun r => (c, r))

/-- Every switch of the context has reserved: the lead's entry may be accepted. -/
def collReady (s : State) (e : Nat) : Bool :=
  match roundOf s e with
  | some (c, r) => decide (c.nSwitches ≤ r.reserved.length)
  | none => false

/-- Acceptance of a run at the lead: the go object is set at every switch of the context (R262, R264), by the SYNC_ST of this
switch's own agent, and the round begins once the one before it is at an end. -/
def collAccept (s : State) (e : Nat) : State :=
  match roundOf s e with
  | none => s
  | some (c, r) =>
    let s := updRoundAt s c r.params.round fun r => { r with accepted := true }
    let v : Word := BitVec.ofNat 64 (r.params.round.toNat * 2 ^ 32 + r.kRun)
    let s := match c.go with
      | none => s
      | some g => (selfId s :: otherSwitches s c).foldl (fun s x =>
          askOwn s .notify 518 (.sync .st v 0 0) (BitVec.ofNat 64 (x.toNat * 2 ^ 48 + g * 8)) 8 c.room 0 0) s
    beginNext s c

end Sys2Proof.Machine
end

