-- ==== Sys2Proof/Machine/Mailbox.lean ====
section
/-!
DEFINITION. Machine/Mailbox.lean: the status answer of R412, the function mailboxes (R448), and the end of a function level
reset (R400).
-/

namespace Sys2Proof.Machine

/-- Measured draw, mW: averaged over the last 1 ms. -/
def measuredMw (s : State) : Nat := s.innk.drawMw

/-- The fields of a GET_STATUS answer. -/
def statusFields (s : State) : List Byte :=
  [BitVec.ofNat 8 (healthCode s.hlth.state), if s.hlth.replace then 1 else 0] ++ leBytes 2 (s.innk.temps.foldl max 0)
    ++ leBytes 2 (measuredMw s / 1000) ++ leBytes 2 (effectiveCap s / 1000) ++ [if s.regs.locked then 1 else 0]

/-! ### Function mailboxes (R448) -/

def boxOf (s : State) (f : Nat) : MailBox := (s.mgmt.boxes.find? (fun b => b.f == f)).getD { f := f }

def putBox (s : State) (b : MailBox) : State :=
  { s with mgmt := { s.mgmt with boxes := s.mgmt.boxes.filter (fun x => x.f != b.f) ++ [b] } }

/-- Rings located at a function: those that are enabled there. -/
def ringsAt (s : State) (f : Nat) : Nat := (s.ledger.rings.filter (fun r => r.enabled && !r.fabric && r.fn == f)).length

/-- The answer to the request in a mailbox: command and instance lie in its first two bytes. -/
def boxAnswer (s : State) (b : MailBox) : List Byte :=
  let cmd := readByte b.request 0
  let inst := readByte b.request 1
  if cmd = 0x02 then
    [cmd, inst, 0x00] ++ statusFields s ++ leBytes 2 (ringsAt s b.f) ++ [if s.mgmt.flr.contains b.f then 1 else 0]
  else [cmd, inst, 0x01]

/-- Answers a mailbox: the response stands, `rsp` is set and `req` reads 0. -/
def answerBox (s : State) (f : Nat) : State :=
  let b := boxOf s f
  putBox s { b with req := false, rsp := true, resp := boxAnswer s b }

/-- Work of a function that an FLR took off its rings is not done (R400). -/
def flrBusy (s : State) (f : Nat) : Bool := s.ledger.entries.any (fun x => x.adopted && x.mgmt && !x.share && x.fn == f)

/-- Ends the FLRs whose work is done, and answers the requests that waited for them. -/
def settleFlr (s : State) : State :=
  let done := s.mgmt.flr.filter (fun f => !flrBusy s f)
  let s := { s with mgmt := { s.mgmt with flr := s.mgmt.flr.filter (flrBusy s) } }
  done.foldl (fun s f => if (boxOf s f).req then answerBox s f else s) s

/-- MAILBOX_REQUEST (R448): `req` is written with a request length; while a request is pending it is ignored and counted. -/
def execMailboxRequest (f len : Nat) (s : State) : Host.Outcome State Fault Refusal :=
  .next (if decide (64 ≤ f) || !(s.boot.power == .setUp || s.boot.power == .running || s.boot.power == .failed) then s
    else if (boxOf s f).req then { s with mgmt := { s.mgmt with boxIgnored := s.mgmt.boxIgnored + 1 } }
    else
      let b := boxOf s f
      let s := putBox s { b with req := true, rsp := false, reqLen := clampNat 5 1024 len }
      if s.mgmt.flr.contains f then s else answerBox s f)

end Sys2Proof.Machine
end

