-- ==== Sys2Proof/Machine/CoreOps.lean ====
section
/-!
DEFINITION. Machine/CoreOps.lean: a core's registers, local addresses and elements (R215, R216, Tables 10-1, 10-3), which
every core instruction shares.
-/

namespace Sys2Proof.Machine

/-! ### Cores and stages -/

def coreOf (s : State) (c : CoreId) : Option Core := s.engine.cores.find? (fun k => k.id == c)

def updCore (s : State) (c : CoreId) (f : Core → Core) : State :=
  { s with engine := { s.engine with cores := mapIf (fun k => k.id == c) f s.engine.cores } }

/-- The open caravan and the stage index that a cluster serves (R220). -/
def stageAt (s : State) (cluster : Nat) : Option (Caravan × Nat) :=
  match s.engine.caravans.find? (fun v => v.stages.any (fun g => g.clusters.contains cluster)) with
  | some v => (v.stages.findIdx? (fun g => g.clusters.contains cluster)).map (fun i => (v, i))
  | none => none

/-- The stage that a cluster serves. -/
def stageOn (s : State) (cluster : Nat) : Option Stage :=
  match stageAt s cluster with
  | some (v, i) => v.stages[i]?
  | none => none

/-- Code length of the image that a core runs. -/
def codeLenOf (s : State) (c : CoreId) : Nat :=
  match stageOn s c.cluster with
  | some g => g.codeLen
  | none => 0

/-- One instruction on a running core; on any other core nothing happens. -/
def onCore (s : State) (c : CoreId) (f : Core → Core) : State :=
  match coreOf s c with
  | some k => if k.st == .running then updCore s c f else s
  | none => s

/-- The core goes to the next instruction. -/
def Core.next (k : Core) : Core := { k with pc := k.pc + 4 }

/-! ### Registers (Table 10-1) -/

/-- s0 reads as zero. -/
def Core.sreg (k : Core) (r : Reg) : Word := if r = 0 then 0 else k.s[r.toNat]!

/-- Writes to s0 are ignored. -/
def Core.setS (k : Core) (r : Reg) (v : Word) : Core := if r = 0 then k else { k with s := k.s.set! r.toNat v }

def Core.vreg (k : Core) (r : Reg) : BitVec 256 := k.v[r.toNat]!

def Core.setV (k : Core) (r : Reg) (v : BitVec 256) : Core := { k with v := k.v.set! r.toNat v }

/-- p0 reads as all ones. -/
def Core.preg (k : Core) (r : PReg) : Word := if r = 0 then BitVec.allOnes 64 else k.p[r.toNat]!

/-- Writes to p0 are ignored. -/
def Core.setP (k : Core) (r : PReg) (v : Word) : Core := if r = 0 then k else { k with p := k.p.set! r.toNat v }

def Core.acc (k : Core) (i : Nat) : Acc := if i = 0 then k.acc0 else k.acc1

def Core.setAcc (k : Core) (i : Nat) (a : Acc) : Core := if i = 0 then { k with acc0 := a } else { k with acc1 := a }

def Core.raised (k : Core) (r : Raised) : Core := { k with flags := raise k.flags r }

/-! ### Elements -/

/-- Elements of a register at a width. -/
def lanes (w : Nat) : Nat := 256 / w

/-- Element `i` at width `w`. -/
def elem (v : BitVec 256) (w i : Nat) : Nat := v.toNat / 2 ^ (w * i) % 2 ^ w

/-- A register made of elements of width `w`, element 0 first. -/
def ofElems (w : Nat) : List Nat → Nat
  | [] => 0
  | x :: l => x % 2 ^ w + 2 ^ w * ofElems w l

def vecOf (w : Nat) (l : List Nat) : BitVec 256 := BitVec.ofNat 256 (ofElems w l)

/-- A result for every element of a width, and everything raised; an element whose predicate bit is clear keeps `old`. -/
def mapElems (w : Nat) (p : Word) (old : BitVec 256) (f : Nat → Nat × Raised) : BitVec 256 × Raised :=
  let rs := (List.range (lanes w)).map fun i => if p.getLsbD i then f i else (elem old w i, {})
  (vecOf w (rs.map (fun x => x.1)), (rs.map (fun x => x.2)).foldl Raised.or {})

/-! ### Local addresses (R216) -/

/-- Key of a byte of a core's local store, or of its cluster's store where address bit 24 is set. -/
def storeKey (c : CoreId) (a : Word) : Nat :=
  if a.getLsbD 24 then (c.cluster * 33 + 32) * 2 ^ 22 + a.toNat % 2 ^ 22
  else (c.cluster * 33 + c.core) * 2 ^ 22 + a.toNat % 2 ^ 18

/-- An address aligned down to a width in bytes, a power of two. -/
def alignDown (a : Word) (n : Nat) : Word := BitVec.ofNat 64 (a.toNat - a.toNat % n)

/-- An address lies in the code region of the core's local store. -/
def inCode (s : State) (c : CoreId) (a : Word) : Bool := !a.getLsbD 24 && decide (a.toNat % 2 ^ 18 < codeLenOf s c)

/-- One byte at a local address: the code region holds the image's code. -/
def localByte (s : State) (c : CoreId) (a : Word) : Byte :=
  if inCode s c a then
    (match stageOn s c.cluster with
      | some g => g.code.getD (a.toNat % 2 ^ 18) 0
      | none => 0)
  else readByte s.engine.stores (storeKey c a)

/-- `n` bytes from a local address on. -/
def localRead (s : State) (c : CoreId) (a : Word) (n : Nat) : List Byte :=
  (List.range n).map fun i => localByte s c (a + BitVec.ofNat 64 i)

/-- A value of `n` bytes at a local address, aligned down. -/
def localVal (s : State) (c : CoreId) (a : Word) (n : Nat) : Nat := leVal (localRead s c (alignDown a n) n)

/-- Stores bytes at local addresses, byte by byte; bytes in the code region are left. -/
def localWriteBytes (s : State) (c : CoreId) (a : Word) : List Byte → State
  | [] => s
  | b :: l =>
    let s := if inCode s c a then s else { s with engine := { s.engine with stores := writeByte s.engine.stores (storeKey c a) b } }
    localWriteBytes s c (a + 1) l

/-- A store of `n` bytes, aligned down; one into the code region is ignored and sets flag [4]. -/
def localStore (s : State) (c : CoreId) (a : Word) (n v : Nat) : State :=
  let a := alignDown a n
  if inCode s c a then updCore s c fun k => { k with flags := setFlag k.flags flagCodeStore }
  else localWriteBytes s c a (leBytes n v)

/-- Sign-extended immediate. -/
def sext (i : BitVec 16) : Word := i.signExtend 64

/-- Target of a branch: offsets count instructions from the branch itself. -/
def Core.branch (k : Core) (off : Int) : Core := { k with pc := BitVec.ofInt 16 ((k.pc.toNat : Int) + 4 * off) }

end Sys2Proof.Machine
end

