-- ==== Sys2Proof/Machine/Stream.lean ====
section
/-!
DEFINITION. Machine/Stream.lean: records, queues and buffers of a caravan (R220 to R224), and what a stage sends.
-/

namespace Sys2Proof.Machine

/-- Label of end records (R221). -/
def endLabel : BitVec 32 := 0xFFFFFFFF

def caravanOf (s : State) (id : Nat) : Option Caravan := s.engine.caravans.find? (fun v => v.id == id)

def updCaravan (s : State) (id : Nat) (f : Caravan → Caravan) : State :=
  { s with engine := { s.engine with caravans := mapIf (fun v => v.id == id) f s.engine.caravans } }

def updStage (s : State) (id i : Nat) (f : Stage → Stage) : State :=
  updCaravan s id fun v => { v with stages := v.stages.zipIdx.map (fun x => if x.2 = i then f x.1 else x.1) }

/-! ### Handles (R242) -/

def mkHandle (addr len : Nat) (poison isEnd : Bool) : Word :=
  BitVec.ofNat 64 (2 ^ 24 + addr) ||| fieldOf 32 16 len ||| fieldOf 48 1 (if poison then 1 else 0) ||| fieldOf 49 1 (if isEnd then 1 else 0)

def handleAddr (h : Word) : Nat := h.toNat % 2 ^ 22
def handleLen (h : Word) : Nat := min 4096 (bitsAt h 32 16)
def handlePoison (h : Word) : Bool := bitsAt h 48 1 == 1

/-! ### Buffers (R223) -/

/-- The highest 4 KiB block of a cluster store that holds no buffer. -/
def freeBlock (v : Caravan) (cluster : Nat) : Nat :=
  let used := (v.bufs.filter (fun b => b.cluster == cluster)).map (fun b => b.addr)
  ((List.range (used.length + 1)).map (fun i => 2 ^ 22 - 4096 * (i + 1))).find? (fun a => !used.contains a) |>.getD 0

/-- Buffers that count against the pool of an input at a cluster. -/
def poolUse (v : Caravan) (stage input cluster : Nat) : Nat :=
  (v.bufs.filter (fun b => b.stage == stage && b.input == input && b.cluster == cluster)).length

/-- Output buffers that cores of a stage hold for an output, bound for a cluster. -/
def outHeld (v : Caravan) (stage out dest : Nat) : Nat :=
  (v.bufs.filter (fun b => b.stage == stage && b.input == 4 + out && b.dest == dest)).length

/-- The edges that an output feeds: (stage, input). Output 0 of a stage feeds input 0 of the next. -/
def edgesFrom (v : Caravan) (i out : Nat) : List (Nat × Nat) :=
  (if out = 0 ∧ i + 1 < v.stages.length then [(i + 1, 0)] else []) ++
    (v.edges.filter (fun e => e.fromStage == i && e.fromOut == out)).map (fun e => (e.toStage, e.toIn))

/-- The stage that feeds an input, if any; input 0 of stage 0 is fed by the source reader. -/
def feeder (v : Caravan) (i input : Nat) : Option Nat :=
  if input = 0 then (if i = 0 then none else some (i - 1))
  else (v.edges.find? (fun e => e.toStage == i && e.toIn == input)).map (fun e => e.fromStage)

/-- The cluster of a stage that takes an input-0 record of label n (R222). -/
def clusterFor (g : Stage) (n : BitVec 32) : Nat := g.clusters.getD (n.toNat % max 1 g.clusters.length) 0

/-- Whether the pools that a record from an output would enter have space. -/
def outHasRoom (v : Caravan) (i out : Nat) (n : BitVec 32) : Bool :=
  (edgesFrom v i out).all fun e => match v.stages[e.1]? with
    | none => true
    | some g =>
      if e.2 = 0 then decide (poolUse v e.1 0 (clusterFor g n) + outHeld v i out (clusterFor g n) < g.depth)
      else g.clusters.all (fun c => decide (poolUse v e.1 e.2 c + (v.bufs.filter (fun b => b.stage == i && b.input == 4 + out)).length < g.depth))

/-! ### Queues -/

/-- A record before another in (n, k) order. -/
def recBefore (a b : Rec) : Bool := decide (a.n.toNat < b.n.toNat) || (a.n == b.n && decide (a.k < b.k))

/-- Puts a record in its place. -/
def insertRec (r : Rec) : List Rec → List Rec
  | [] => [r]
  | x :: l => if recBefore r x then r :: x :: l else x :: insertRec r l

def queueOf (v : Caravan) (stage input cluster : Nat) (core : Option Nat) : List Rec :=
  match v.queues.find? (fun q => q.stage == stage && q.input == input && q.cluster == cluster && q.core == core) with
  | some q => q.recs
  | none => []

/-- Adds a record to a queue. -/
def pushRec (v : Caravan) (stage input cluster : Nat) (core : Option Nat) (r : Rec) : Caravan :=
  if v.queues.any (fun q => q.stage == stage && q.input == input && q.cluster == cluster && q.core == core) then
    let qs := mapIf (fun q => q.stage == stage && q.input == input && q.cluster == cluster && q.core == core)
      (fun (q : InQueue) => { q with recs := insertRec r q.recs }) v.queues
    { v with queues := qs }
  else { v with queues := v.queues ++ [{ stage := stage, input := input, cluster := cluster, core := core, recs := [r] }] }

/-- Takes the first record out of a queue. -/
def popRec (v : Caravan) (stage input cluster : Nat) (core : Option Nat) : Caravan :=
  let qs := mapIf (fun q => q.stage == stage && q.input == input && q.cluster == cluster && q.core == core)
    (fun (q : InQueue) => { q with recs := q.recs.tail }) v.queues
  { v with queues := qs }

/-- A record's bytes enter a buffer of a cluster for an input of a stage; `refs` cores must free it. -/
def storeRecord (s : State) (id stage input cluster refs : Nat) (n : BitVec 32) (k : Nat) (poison : Bool) (data : List Byte)
    (cores : List (Option Nat)) : State :=
  match caravanOf s id with
  | none => s
  | some v =>
    let a := freeBlock v cluster
    let s := { s with engine := { s.engine with stores := writeBytes s.engine.stores ((cluster * 33 + 32) * 2 ^ 22 + a) data } }
    let r : Rec := { n := n, k := k, handle := mkHandle a data.length poison false }
    let h : HeldRec := { stage := stage, cluster := cluster, n := n, k := k, poison := poison, data := data }
    updCaravan s id fun v =>
      let run := if input = 0 then v.run.map (fun (y : Run) => { y with held := y.held ++ [h] }) else v.run
      let v := { v with run := run }
      let v := { v with bufs := v.bufs ++ [{ addr := a, cluster := cluster, stage := stage, input := input, dest := cluster, refs := refs }] }
      cores.foldl (fun v c => pushRec v stage input cluster c r) v

/-- A cluster of a stage is done with an input-0 record: what it sent is downstream, and the record is held no longer (R226). -/
def dropInput (s : State) (id stage cluster : Nat) (n : BitVec 32) (k : Nat) : State :=
  updCaravan s id fun v => { v with run := v.run.map fun y => { y with
    held := y.held.filter (fun h => !(h.stage == stage && h.cluster == cluster && h.n == n && h.k == k)) } }

/-- A record that a stage sends on an output: to the next stage's cluster, to every used core of a stage fed by an edge, or
from the last stage's output 0 to the sink (R222); a label that a rerun repeats is discarded (R226). -/
def sendRecord (s : State) (id i out : Nat) (n : BitVec 32) (k : Nat) (poison : Bool) (data : List Byte) : State :=
  match caravanOf s id with
  | none => s
  | some v =>
    let again : Bool := match v.run with
      | some r => r.reruns.any (fun x => x.1 == i && x.2.1 == n && decide (k < x.2.2))
      | none => false
    if again then s else
    let s := if out = 0 ∧ i + 1 = v.stages.length then
        updCaravan s id fun v => { v with run := v.run.map fun r => { r with sinkRecs := r.sinkRecs ++ [(n, k, poison, data)] } }
      else s
    (edgesFrom v i out).foldl (fun s e => match v.stages[e.1]? with
      | none => s
      | some g =>
        if e.2 = 0 then storeRecord s id e.1 0 (clusterFor g n) 1 n k poison data [none]
        else g.clusters.foldl (fun s c =>
          storeRecord s id e.1 e.2 c (max 1 g.usedCores) n k poison data ((List.range (max 1 g.usedCores)).map some)) s) s

/-- A buffer of a cluster loses one core's hold; the last one frees it. -/
def releaseBuf (s : State) (cluster addr : Nat) : State :=
  match stageAt s cluster with
  | none => s
  | some (v, _) => updCaravan s v.id fun v => { v with
      bufs := (mapIf (fun b => b.cluster == cluster && b.addr == addr) (fun (b : Buf) => { b with refs := b.refs - 1 }) v.bufs).filter
        (fun b => b.refs != 0) }

/-- Room and class of the run that a core works for. -/
def runEntry (s : State) (cluster : Nat) : Option Entry :=
  match stageAt s cluster with
  | some (v, _) => match v.run with
    | some r => ledgerEntry s r.e
    | none => none
  | none => none

/-- Drops what is left of a caravan's run: its queues and buffers, its cores, and the line buffers (R224, R239). -/
def clearRun (s : State) (id : Nat) : State :=
  match caravanOf s id with
  | none => s
  | some v =>
    let cs := v.stages.flatMap (fun g => g.clusters)
    let s := s.engine.cores.foldl (fun s k =>
      if cs.contains k.id.cluster then k.transfers.foldl (fun s t => disown s (.transfer k.id t.id)) s else s) s
    let s := { s with engine := { s.engine with
      cores := s.engine.cores.filter (fun k => !cs.contains k.id.cluster)
      lineBuf := s.engine.lineBuf.filter (fun b => !cs.contains b.1) } }
    updCaravan s id fun v => { v with
      run := none, queues := [], bufs := [], stages := v.stages.map (fun g => { g with doneCores := [], closed := false }) }

/-! ### Order of delivery (R222) -/

/-- The least label that a stage may still send: of records its cores work on, of records queued for it, and of what its
own feeder may still send. Stage 0 is fed by the source reader. `fuel` is the number of stages. -/
def frontier (s : State) (v : Caravan) : Nat → Nat → Nat
  | 0, _ => 2 ^ 32
  | fuel + 1, i =>
    match v.stages[i]? with
    | none => 2 ^ 32
    | some g =>
      if g.closed then 2 ^ 32
      else
        let working := (s.engine.cores.filter (fun c => g.clusters.contains c.id.cluster && c.st != .idle &&
          (match c.st with
            | .recvWait 0 _ => false
            | _ => true))).map (fun c => c.n.toNat)
        let queued := ((v.queues.filter (fun q => q.stage == i && q.input == 0)).flatMap (fun q => q.recs)).map (fun r => r.n.toNat)
        let up := if i = 0 then (match v.run with
            | some r => if r.ended then 2 ^ 32 - 1 else r.nextRec
            | none => 2 ^ 32)
          else frontier s v fuel (i - 1)
        (working ++ queued).foldl min up

/-- Whether the first record of an input may be delivered: nothing of a lower label can still come. -/
def deliverable (s : State) (v : Caravan) (i input : Nat) (r : Rec) : Bool :=
  match feeder v i input with
  | none => true
  | some f => decide (r.n.toNat ≤ frontier s v v.stages.length f)

/-- The feeder of an input has closed: after the queue, end records follow (R224). -/
def feederClosed (v : Caravan) (i input : Nat) : Bool :=
  match feeder v i input with
  | some f => match v.stages[f]? with
    | some g => g.closed
    | none => true
  | none => if input = 0 then (match v.run with
      | some r => r.ended
      | none => true) else true

/-- What RECV on an input finds: a record's queue and handle, the end record, or nothing yet. -/
inductive Found where
  | record (core : Option Nat) (r : Rec)
  | ended
  | nothing
  deriving DecidableEq, Repr

def findInput (s : State) (v : Caravan) (i : Nat) (k : Core) (input : Nat) : Found :=
  let who : Option Nat := if input = 0 then none else some k.id.core
  match queueOf v i input k.id.cluster who with
  | r :: _ => if deliverable s v i input r then .record who r else .nothing
  | [] =>
    if feederClosed v i input then (if input = 0 && k.got && k.n == endLabel then .nothing else .ended) else .nothing

end Sys2Proof.Machine
end

