-- ==== Sys2Proof/Machine/Rings.lean ====
section
/-!
DEFINITION. Machine/Rings.lean: rings, doorbells, fetch and acceptance (R193 to R207), completion records (R208 to R212),
RING_SET, and the timers of a descriptor.
-/

namespace Sys2Proof.Machine

/-! ### Fetch and acceptance (R204 to R207) -/

/-- The lowest ledger entry that is free. -/
def freeEntry (s : State) : Nat :=
  ((List.range (s.ledger.entries.length + 1)).find? (fun n => (ledgerEntry s n).isNone)).getD 0

/-- Entries that count against the bound of R204. -/
def ledgerCount (s : State) : Nat := (s.ledger.entries.filter (fun x => !isRefused x)).length

/-- The room's current slice still holds a ring and its function; rings of room 0x00 have no slice (R464, R196). -/
def ringInSlice (s : State) (r : Ring) : Bool :=
  if r.room = 0 then true
  else match sliceOf s r.room with
    | some y => decide (y.ring0 ≤ r.id.toNat) && decide (r.id.toNat < y.ring0 + y.nrings) &&
        (r.fabric || (decide (r.fn < 64) && y.funcs.getLsbD r.fn))
    | none => false

/-- The reference is locked to a source or runs free: acceptance waits for that (R317, R419 step 13). -/
def timeReady (s : State) : Bool := !(s.time.lock == 1 && s.time.source == 3)

/-- The conditions of R204 but for the sequence field, once the mirror has been read (R423) and holds the ring's record (R347); a function in reset, or a link
that is down, cannot be read (R400). -/
def mayFetch (s : State) (r : Ring) : Bool :=
  isRunning s && s.ledger.mirrorRead && timeReady s && r.enabled && !awaits s (.mirror 1 r.id.toNat) && r.h != r.tail && ringInSlice s r && decide (ledgerCount s < 262144)
    && decide ((r.nw - r.head).toNat + openFinals s r.id < 2 ^ r.c)
    && (r.fabric || (s.mgmt.link && !s.mgmt.flr.contains r.fn))

/-- An earlier descriptor of the ring is not accepted yet, or refused and waits for its final record: a ring's descriptors are
accepted in its order (R5, R207, R347). -/
def refusedBefore (s : State) (en : Entry) : Bool :=
  s.ledger.entries.any fun x => x.ring == en.ring && !x.adopted && x.st == .mirroring && seqBefore (descSeq x.desc) (descSeq en.desc)

/-- Takes the descriptor at h: clamps it, tests it, and enters it in the ledger, accepted once it is mirrored. -/
def testDescriptor (s : State) (r : Ring) (d : BitVec 512) : State :=
  let tA := stamp s 18
  let c := clampDesc s r.room tA d
  let s := countClamps s r.id (descOp c.d) c.count c.last
  let s := updRing s r.id fun x => { x with h := x.h + 1, staleAt := none }
  let e := freeEntry s
  let en : Entry := { n := e, desc := c.d, ring := r.id, mgmt := !r.fabric, fn := if r.fabric then 0 else r.fn, tA := tA
                      promise := promiseOf s c.d tA, fetched := stamp s (frontEndIsland r.id), clamps := c.count }
  let s := { s with ledger := { s.ledger with
    entries := s.ledger.entries ++ [en]
    lastServed0 := if r.id.toNat % 2 = 0 then r.id else s.ledger.lastServed0
    lastServed1 := if r.id.toNat % 2 = 1 then r.id else s.ledger.lastServed1 } }
  match admitTest s c.d tA with
  | .refuse k t =>
    let s := { s with innk := { s.innk with refused := s.innk.refused + 1 } }
    let s := updRoom s r.room fun x => { x with refused := x.refused + 1 }
    finish s e { status := 0x02, byte5 := BitVec.ofNat 8 k, progress := 0, r16 := BitVec.ofNat 64 t }
  | .take p =>
    let s := match p with
      | some p => bookPlan s e r.room (descClass c.d == 1) p
      | none => s
    -- A COLL_RUN is mirrored once every switch of its context has reserved (R264), an open once what it names has been read
    -- for its test (R4); every entry after those before it (R5).
    let s := updLedger s e fun x => { x with claims := claimsOf s c.d p }
    if descOp c.d = 0x49 || testReads (descOp c.d) || refusedBefore s en then s else mirrorEntry s e

/-- A descriptor read from the slot of h: of another sequence it stops the fetch, and is counted (R205); else it is tested. -/
def takeSlot (s : State) (r : Ring) (d : BitVec 512) : State :=
  if descSeq d != r.h then updRing s r.id fun x => { x with stale := x.stale + 1, staleAt := some s.time.now }
  else testDescriptor s r d

/-- Asks for the line of the slot of h by a volatile LD, unless it is asked for (R194, R465). -/
def askSlot (s : State) (r : Ring) : State :=
  let g := r.dbase + BitVec.ofNat 64 (64 * (r.h.toNat % 2 ^ r.d))
  if awaits s (.fetch r.id) then s else askOwn s (.fetch r.id) (512 + r.id.toNat % 2) (.ld true) g 64 r.room 0 0

/-- What a slot read has brought, if it has: a failed read is the error value (R205). -/
def gotSlot (s : State) (r : Ring) : Option (BitVec 512) :=
  (s.own.got.find? (fun y => y.who == .fetch r.id)).map fun y =>
    if y.status = 0x00 then BitVec.ofNat 512 (leVal y.data) else BitVec.ofNat 512 (2 ^ 512 - 1)

/-- Fetches descriptors of a ring while R204 allows it: of a function's ring the slots are brought, of a fabric ring they are
read, one at a time. -/
def fetchLoop : Nat → State → BitVec 12 → List (BitVec 512) → State
  | 0, s, _, _ => s
  | k + 1, s, id, slots =>
    match ringOf s id with
    | none => s
    | some r =>
      if !mayFetch s r then s
      else if r.fabric then
        let s := if (gotSlot s r).isNone then askSlot s r else s
        match gotSlot s r with
        | some d =>
          let t := takeSlot (dropAsks s (.fetch id)) r d
          if descSeq d != r.h then t else fetchLoop k t id slots
        | none => s
      else match slots with
        | [] => s
        | d :: l => if descSeq d != r.h then takeSlot s r d else fetchLoop k (takeSlot s r d) id l

/-- Fetch of a ring after an event; the tail is mirrored before the first fetch beyond it (R347). -/
def fetchRing (s : State) (id : BitVec 12) (slots : List (BitVec 512)) : State :=
  match ringOf s id with
  | none => s
  | some r =>
    let s := if r.tail != r.tailMirrored then mirrorRing s id else s
    fetchLoop ((r.tail - r.h).toNat) s id slots

/-- One turn of a ring: at most one descriptor; the tail is mirrored before the first fetch beyond it (R206, R347). -/
def fetchTurn (s : State) (id : BitVec 12) : State :=
  match ringOf s id with
  | none => s
  | some r => fetchLoop 1 (if r.tail != r.tailMirrored then mirrorRing s id else s) id []

/-- How many rings a ring of this front end stands behind the last one served (R206). -/
def turnOf (s : State) (r : Ring) : Nat :=
  (r.id - (if r.id.toNat % 2 = 0 then s.ledger.lastServed0 else s.ledger.lastServed1) - 1).toNat

/-- Puts a ring into the order of the turns. -/
def insertTurn (s : State) (r : Ring) : List Ring → List Ring
  | [] => [r]
  | x :: l => if turnOf s r ≤ turnOf s x then r :: x :: l else x :: insertTurn s r l

/-- Fetch goes on for the fabric rings whose slot has been read since, and for those that may fetch and have not asked for a
slot: in rotating order from the ring after the last one served, one descriptor per turn (R206). -/
def settleFetches (s : State) : State :=
  ((s.ledger.rings.filter fun r =>
    (gotSlot s r).isSome || (r.fabric && r.staleAt.isNone && mayFetch s r && !awaits s (.fetch r.id))).foldr (insertTurn s) []).foldl
    (fun s r => fetchTurn s r.id) s

/-- A doorbell delivered to the front end: it must come from where the ring lies (R201). -/
def deliverBell (s : State) (id : BitVec 12) (fn : Option Nat) (f : Ring → Ring) : State :=
  updRing s id fun x =>
    if x.fabric == fn.isNone && (x.fabric || fn == some x.fn) then f x else { x with dbIgnored := x.dbIgnored + 1 }

/-- TAIL_DOORBELL (R201, R202, R204). -/
def execTailDoorbell (ring : BitVec 12) (fn : Option Nat) (count : BitVec 32) (slots : List (BitVec 512)) (s : State) :
    Host.Outcome State Fault Refusal :=
  .next (if isRunning s then fetchRing (deliverBell s ring fn (tailOn count)) ring slots else s)

/-- HEAD_DOORBELL (R201, R202). -/
def execHeadDoorbell (ring : BitVec 12) (fn : Option Nat) (count : BitVec 32) (s : State) : Host.Outcome State Fault Refusal :=
  .next (if isRunning s then deliverBell s ring fn (headOn count) else s)

/-- FETCH_RESUME (R206): one turn of the rotation gives a ring one descriptor. -/
def execFetchResume (ring : BitVec 12) (slots : List (BitVec 512)) (s : State) : Host.Outcome State Fault Refusal :=
  .next (fetchLoop 1 s ring slots)

/-- STALE_SLOT_REREAD (R205): 100 us after the stop. -/
def execStaleSlotReread (ring : BitVec 12) (slots : List (BitVec 512)) (s : State) : Host.Outcome State Fault Refusal :=
  .next (match ringOf s ring with
    | some r => match r.staleAt with
      | some t => if t + 100000 ≤ s.time.now then fetchRing s ring slots else s
      | none => s
    | none => s)

/-! ### The mirror's answers (R346, R347) -/

/-- What an acceptance does at once: a booking begins (R295); a close, or an unload, stops the acceptance of runs and of
scans (R239, R274, R308), and those that are accepted after it complete with status 0x03. -/
def onAccept (s : State) (en : Entry) : State :=
  let room := entryRoom en
  let id := descField en.desc 16 1
  match descOp en.desc with
  | 0x70 =>
    if room = 0 then { s with filt := { s.filt with booking := s.filt.booking ++ [(BitVec.ofNat 8 (descField en.desc 16 1), en.n)] } } else s
  | 0x74 =>
    let mark := mapIf (fun (a : Automaton) => a.id == id && a.room == room && a.closing.isNone) (fun a => { a with closing := some en.n })
    { s with filt := { s.filt with automata := mark s.filt.automata } }
  | 0x75 =>
    if s.filt.automata.any (fun a => a.id == descField en.desc 28 1 && a.room == room && a.closing.isSome) then
      finishStatus (startEntry s en.n) en.n 0x03 0 0
    else s
  | 0x42 =>
    let mark := mapIf (fun (v : Caravan) => v.id == id && fromRoom en v.room && v.closing.isNone) (fun v => { v with closing := some en.n })
    { s with engine := { s.engine with caravans := mark s.engine.caravans } }
  | 0x41 =>
    if s.engine.caravans.any (fun v => v.id == id && fromRoom en v.room && v.closing.isSome) then
      finishStatus (startEntry s en.n) en.n 0x03 0 0
    else s
  | 0x4A =>
    let mark := mapIf (fun (c : Context) =>
      c.lead.toNat == descField en.desc 18 2 && c.ctx.toNat == descField en.desc 16 2 && fromRoom en c.room && c.closing.isNone)
      (fun c => { c with closing := some en.n })
    { s with coll := { s.coll with ctxs := mark s.coll.ctxs } }
  | 0x49 => collAccept s en.n
  | _ => s

/-- Acceptance: the instant the entry is mirrored (R207); the epoch is the room's current one. The entry goes to the end of the
ledger's list, so that accepted entries stand there in the order of their acceptance (R239). -/
def acceptEntry (s : State) (e : Nat) : State :=
  match ledgerEntry s e with
  | none => s
  | some en =>
    let en := { en with st := .accepted, epoch := currentEpoch s (entryRoom en) }
    let s := { s with ledger := { s.ledger with entries := s.ledger.entries.filter (fun (x : Entry) => x.n != e) ++ [en] } }
    onAccept { s with time := { s.time with accepted := true } } en

/-- The acceptance write that was held behind an earlier descriptor of the ring is made (R5, R347). -/
def mirrorHeld (s : State) (ring : BitVec 12) : State :=
  let held := s.ledger.entries.filter (fun x =>
    x.ring == ring && !x.adopted && x.st == .mirroring && x.result.isNone && descOp x.desc != 0x49
      && (x.tested || !testReads (descOp x.desc)) && !refusedBefore s x)
  held.foldl (fun s x => mirrorEntry s x.n) s

/-- What a test had to read has been read: the descriptor is mirrored, with what it is to hold. -/
def passTest (s : State) (en : Entry) (claims : List Nat) (promise : Nat) : State :=
  let s := updLedger s en.n fun x => { x with tested := true, claims := claims, promise := promise }
  if refusedBefore s en then s else mirrorEntry s en.n

/-- The test of a descriptor whose test reads what it names. -/
def withTest (s : State) (e op : Nat) (f : State → Entry → State) : State :=
  tryWork 1048576 s e (fun s en => untested s en op) (fun s _ => s) f

/-- MIRROR_ACK (R207, R346, R347): both lines are acknowledged. -/
def execMirrorAck (e : Nat) (s : State) : Host.Outcome State Fault Refusal :=
  .next (match ledgerEntry s e with
    | some en =>
      if isRunning s && en.st == .mirroring && en.result.isNone && s.ledger.target != 0 && !refusedBefore s en
          && !awaits s (.mirror 2 e) && (descOp en.desc != 0x49 || collReady s e) then mirrorHeld (acceptEntry s e) en.ring
      else s
    | none => s)

/-- The mirror target is lost: the next one of R345 is written whole and used from now on. -/
def loseTarget (s : State) : State :=
  let t := if s.ledger.target = 1 ∧ ledgerExtReachable s then 2 else 0
  let old := s.ledger.target
  let s := { s with ledger := { s.ledger with target := t } }
  let s := if t ≠ 0 then mirrorAll s else dropMirror s
  if old = 1 ∧ t = 2 then degrade s else s

/-- An entry that cannot be mirrored anywhere before its acceptance is refused with reason 0x07. -/
def refuseUnmirrored (s : State) (e : Nat) : State :=
  match ledgerEntry s e with
  | some en =>
    if en.st == .mirroring && en.result.isNone then
      let s := { s with innk := { s.innk with refused := s.innk.refused + 1 } }
      let s := updRoom s (entryRoom en) fun x => { x with refused := x.refused + 1 }
      finish (unbook s e) e { status := 0x02, byte5 := 0x07, progress := 0 }
    else s
  | none => s

/-- MIRROR_RETRY (R346). -/
def execMirrorRetry (e : Nat) (lost : Bool) (s : State) : Host.Outcome State Fault Refusal :=
  .next (if !isRunning s then s
    else
      let s := if lost then loseTarget s else refreshTarget s
      if s.ledger.target = 0 then refuseUnmirrored s e else mirrorEntryAt s e)

/-! ### Progress (R208, R38, R45) -/

/-- Progress in basis points and the position of a descriptor that runs. -/
def progressNow (s : State) (en : Entry) : Nat × Nat :=
  match descOp en.desc with
  | 0x20 =>
    let r : RoomId := BitVec.ofNat 8 (descField en.desc 16 1)
    (en.progress, match roomOf s r with
      | some x => (match x.older with
        | some o => inFlight s r o
        | none => 0)
      | none => 0)
  | 0x22 =>
    let xs := s.maps.exts.filter (fun x => x.st == .draining && (revokeKeys en.desc).contains x.key)
    let left := (xs.map (drainLeft s)).sum
    (if en.drain0 = 0 then en.progress else 10000 * (en.drain0 - left) / en.drain0, left)
  | 0x49 =>
    match roundOf s en.n with
    | some (c, r) => (10000 * (reported r).1 / max 1 (runChunks c r), (reported r).1)
    | none => (en.progress, 0)
  | 0x2B => (10000 * (en.doneCount + en.skipCount) / max 1 (en.pendingWork - 1), en.position.toNat)
  | _ => (en.progress, en.position.toNat)

/-- The count report of a root to the lead, each progress interval of the run (R268). -/
def shareReport (s : State) (e : Nat) : State :=
  match s.coll.ctxs.findSome? (fun c => (c.round.bind fun r => if r.share = some e ∧ !r.ended then some (c, r) else none)) with
  | some (c, r) =>
    if ownChunks c r (selfId s) = 0 then s
    else emit s (collPacket s c r 0x93 vcRsp (switchAgentId s c.lead) r.rootDone 0xFFE (min 65535 r.rootPoisoned) false [])
  | none => s

/-- PROGRESS_INTERVAL (R208, R268). -/
def execProgressInterval (e : Nat) (s : State) : Host.Outcome State Fault Refusal :=
  .next (match ledgerEntry s e with
    | some en => if en.share then (if isRunning s then shareReport s e else s) else match ringOf s en.ring with
      | some r =>
        if en.started && en.result.isNone && descBit en.desc 14 && descClass en.desc != 0 && isRunning s && !en.adopted
            && decide (en.progAt + 1000 * r.pint ≤ s.time.now) then
          let (p, pos) := progressNow s en
          let p := max en.progress (min 10000 p)
          let s := updLedger s e fun x => { x with progress := p, progAt := x.progAt + 1000 * r.pint }
          if (r.nw - r.head).toNat + openFinals s r.id < 2 ^ r.c - 1 then
            writeRecord s r (descSeq en.desc) 0x07 (if en.replayed then 1 else 0) p (stamp s (frontEndIsland r.id)) (BitVec.ofNat 64 pos) 0
          else updRing s r.id fun x => { x with skipped := x.skipped + 1 }
        else s
      | none => s
    | none => s)

/-! ### Final records (R210 to R212, R346, R347) -/

/-- Byte of a descriptor's completion sync object, for the opcodes that have one. -/
def doneObjByte (op : Nat) : Option Nat :=
  match op with
  | 0x41 => some 60
  | 0x49 => some 44
  | 0x60 => some 48
  | 0x61 => some 48
  | 0x62 => some 60
  | 0x63 => some 60
  | 0x72 => some 44
  | 0x75 => some 56
  | _ => none

/-- The completion sync object, if the descriptor names one. -/
def doneObj (d : BitVec 512) : Option Nat :=
  match doneObjByte (descOp d) with
  | some b => if descField d b 4 ≥ 2 ^ 31 then none else some (descField d b 4)
  | none => none

/-- Byte 5 of a final record without its phase: the reason of a refusal, else the replay flag. -/
def finalByte5 (en : Entry) (f : Final) : Nat :=
  if f.status = 0x02 then f.byte5.toNat % 128 else if en.replayed then 1 else 0

/-- R360: the completion of an adopted management function ring goes to the fault log. -/
def adoptedRecord (s : State) (en : Entry) (f : Final) : State :=
  let v := recordBits (descSeq en.desc) f.status.toNat (finalByte5 en f) f.progress en.doneAt f.r16 f.r24
  addFault s { mkFault 0x0B 0 v.toNat with
    room := entryRoom en, unitCode := en.fn, unitIndex := en.ring.toNat, status := f.status, tag := descSeq en.desc }

/-- Whether the ring has space for one more record that the mirror's n_w covers (R347). -/
def recordFits (r : Ring) : Bool := decide ((r.nw - r.nwMirrored).toNat < 2 ^ r.c)

/-- The entry is mirrored in state 3, if it is not yet (R212). -/
def holdResult (s : State) (en : Entry) : State :=
  if en.st == .resultHeld then refreshTarget s
  else refreshTarget (mirrorEntry (updLedger s en.n fun x => { x with st := .resultHeld }) en.n)

/-- Marks the final record written. -/
def markRecorded (s : State) (e : Nat) : State := updLedger s e fun x => { x with recorded := true }

/-- The final record of an entry of a ring; a refusal has no entry to mirror (R347). -/
def ringRecord (s : State) (en : Entry) (f : Final) (r : Ring) : State :=
  if isRefused en then
    if recordFits r then
      markRecorded (writeRecord s r (descSeq en.desc) 2 (finalByte5 en f) 0 en.doneAt f.r16 f.r24) en.n
    else s
  else
    let s := holdResult (countMiss s en) en
    if s.ledger.target = 0 || awaits s (.mirror 2 en.n) || !recordFits r then s
    else
      let p := if f.status = 0x00 ∨ f.status = 0x01 then 10000 else f.progress
      markRecorded (writeRecord s r (descSeq en.desc) f.status.toNat (finalByte5 en f) p en.doneAt f.r16 f.r24) en.n

/-- The final record of an adopted entry goes to the fault log (R360, R400). -/
def adoptedFinal (s : State) (en : Entry) (f : Final) : State :=
  if isRefused en then markRecorded (adoptedRecord s en f) en.n
  else
    let s := holdResult (countMiss s en) en
    if s.ledger.target = 0 || awaits s (.mirror 2 en.n) then s else markRecorded (adoptedRecord s en f) en.n

/-! ### Room reset (R426) -/

/-- Descriptors of a room's rings that have not written their final record; those refused meanwhile do not count. -/
def roomWork (s : State) (r : RoomId) : List Entry :=
  s.ledger.entries.filter fun x => !x.share && entryRoom x == r && !x.recorded && !isRefused x

/-- Closes what a room has open: caravans, collective contexts, automata, array tables, snapshot handles. -/
def closeRoom (s : State) (r : RoomId) : State :=
  let s := ((s.engine.caravans.filter (fun v => v.room == r)).map (fun v => v.id)).foldl clearRun s
  let groups := (s.coll.ctxs.filter (fun c => c.room == r)).map (fun c => c.group)
  let s := { s with
    engine := { s.engine with caravans := s.engine.caravans.filter (fun v => v.room != r) }
    coll := { s.coll with ctxs := s.coll.ctxs.filter (fun c => c.room != r) }
    fab := { s.fab with groups := s.fab.groups.filter (fun g => !groups.contains g.id) }
    filt := { s.filt with
      automata := s.filt.automata.filter (fun a => a.room != r)
      tables := mapIf (fun (t : Table) => t.room == r) (fun t => { t with entries := [] }) s.filt.tables } }
  ((s.maps.handles.filter (fun h => h.room == r)).map (fun h => h.h)).foldl (fun s h => closeHandle (journal s 10 h.toNat) h) s

/-- Completes every room reset whose room has no work left. -/
def settleRoomResets (s : State) : State :=
  let done := s.boot.roomResets.filter (fun r => (roomWork s r).isEmpty)
  done.foldl (fun s r =>
    let s := closeRoom s r
    { s with boot := { s.boot with roomResets := s.boot.roomResets.filter (· != r), roomRst := r.toNat } }) s

/-- What writes that failed late take from bytes 16 to 23: fault records not copied (R366), partial records not written (R284, R287), bytes
of elements not written (R289). -/
def lateLoss (en : Entry) (late : List OwnGot) : Nat :=
  let d := en.desc
  let bad := late.filter (fun y => y.status != 0x00 && (descOp d == 0x91 || y.status != 0x01))
  let items := fun (out : Word) (stride : Nat) => ((bad.map fun y => (y.gfa - out).toNat / max 1 stride).eraseDups).length
  match descOp d with
  | 0x60 => items (descWord d 24) (partialBytes d)
  | 0x61 => items (descWord d 24) (mergeOutBytes d)
  | 0x62 => items (descWord d 24) (descField d 44 2) * descField d 44 2
  | 0x91 => items (descWord d 32) 64
  | _ => 0

/-- FINAL_RECORD (R212): the record of a descriptor whose work is done is written. -/
def execFinalRecord (e : Nat) (s : State) : Host.Outcome State Fault Refusal :=
  .next (match ledgerEntry s e with
    | none => s
    | some en => match en.result with
      | some f =>
        if en.recorded || !isRunning s || awaits s (.work e) then s
        else
        let s := absorbWrites s e lateLoss
        let en := (ledgerEntry s e).getD en
        let f := en.result.getD f
        if en.adopted then settleRoomResets (adoptedFinal s en f)
        else match ringOf s en.ring with
          | some r => settleRoomResets (ringRecord s en f r)
          | none => s
      | none => s)

/-- A disable whose last descriptor has its final record completes, with its own record the ring's last (R197). -/
def settleDisables (s : State) : State :=
  s.ledger.rings.foldl (fun s r => match r.disabling with
    | some (_, e) =>
      if s.ledger.entries.any (fun x => x.ring == r.id && x.n != e && !x.adopted) then s
      else
        let s := updRing s r.id fun x => { x with disabling := none }
        finishDone s e 1 0
    | none => s) s

/-- R361: a retiring switch whose accepted work is done mirrors its ring records, hands its rings over (header state 1) and
enters Failed. -/
def settleRetiring (s : State) : State :=
  if s.hlth.state = .retiring ∧ s.ledger.entries = [] then
    let s := (s.ledger.rings.map (fun r => r.id)).foldl mirrorRing s
    let s := { s with ledger := { s.ledger with headerState := 1 } }
    let s := if s.ledger.target = 0 then s else mirrorHeader s
    enterHealth s .failed
  else s

/-- A record that waits for the management link is not written yet (R400). -/
def recordWaits (s : State) (en : Entry) : Bool :=
  !s.mgmt.link && !en.adopted && (match ringOf s en.ring with
    | some r => !r.fabric
    | none => false)

/-- FINAL_RECORD_ACK (R212, R346): the completion object, the notification, then the release of the entry. -/
def execFinalRecordAck (e : Nat) (s : State) : Host.Outcome State Fault Refusal :=
  .next (match ledgerEntry s e with
    | none => s
    | some en =>
      if !en.recorded || !isRunning s || recordWaits s en || awaits s (.record en.ring) then s
      else
        let refused := isRefused en
        let quiet := en.adopted
        let s := if quiet then s else match doneObj en.desc with
          | some n => ownSyncAdd s (entryRoom en) n
          | none => s
        let s := match ringOf s en.ring with
          | some r =>
            if quiet || !descBit en.desc 13 then s
            else if r.fabric then (match r.notifyObj with
              | some n => ownSyncAdd s r.room n
              | none => s)
            else say s (.msix r.fn r.vector)
          | none => s
        let s := if refused || s.ledger.target == 0 then s else mirrorRelease s e
        let s := unbook s e
        let s := { s with
          ledger := { s.ledger with
            entries := s.ledger.entries.filter (fun x => x.n != e)
            applied := s.ledger.applied.filter (fun x => !(x.1 == en.ring && x.2.1 == descSeq en.desc)) }
          maps := { s.maps with exts := s.maps.exts.map (fun x => { x with descs := x.descs.filter (· != e) }) } }
        settleRetiring (settleDisables (settleFlr (settleAll (pump (mirrorHeld s en.ring))))))

/-- DESCRIPTOR_DEADLINE (R329, R341). -/
def execDescriptorDeadline (e : Nat) (s : State) : Host.Outcome State Fault Refusal :=
  .next (match ledgerEntry s e with
    | some en => if en.st != .mirroring && en.result.isNone && isRunning s then countMiss s en else s
    | none => s)

/-! ### NOP and RING_SET -/

/-- NOP (R200). -/
def execNop (e : Nat) (s : State) : Host.Outcome State Fault Refusal :=
  .next (withEntry s e 0x00 fun s en => finishDone s en.n 0 0)

/-- The room that the current composition books a ring to; none books it to room 0x00 (R28, R196). -/
def ringRoom (s : State) (k : Nat) : RoomId :=
  match s.rooms.rooms.find? (fun x => x.cur.any (fun y => y.switch == selfId s && decide (y.ring0 ≤ k) && decide (k < y.ring0 + y.nrings))) with
  | some x => x.id
  | none => 0

/-- Whether a set may be made: not enabled, its function in the room's bitmap, its doorbell object bound to the room. -/
def ringSettable (s : State) (room : RoomId) (d : BitVec 512) : Bool :=
  let id : BitVec 12 := BitVec.ofNat 12 (descField d 16 2)
  let old : Bool := match ringOf s id with
    | some r => r.enabled || r.disabling.isSome || s.ledger.entries.any (fun x => x.ring == id)
    | none => false
  id != 0 && !old &&
    (if descField d 19 1 = 1 then
      room != 0 && (match syncObjOf s (descField d 52 4) with
        | some o => o.room == room
        | none => false)
     else if room = 0 then descField d 20 1 == 0
     else match sliceOf s room with
      | some y => decide (descField d 20 1 < 64) && y.funcs.getLsbD (descField d 20 1)
      | none => false)

/-- RING_SET may be executed from room 0x00, or by a room for a ring booked to it. -/
def ringAllowed (s : State) (en : Entry) : Bool := entryRoom en == 0 || ringRoom s (descField en.desc 16 2) == entryRoom en

/-- RING_SET with action 0 on an entry that runs. -/
def ringSetRun (s : State) (en : Entry) : State :=
  let d := en.desc
  if descField d 18 1 ≠ 0 then s
  else if !ringAllowed s en then finishStatus s en.n 0x03 0 0
  else
    let room := ringRoom s (descField d 16 2)
    if !ringSettable s room d then finishDone s en.n 0 0
    else
      let id : BitVec 12 := BitVec.ofNat 12 (descField d 16 2)
      let start : BitVec 32 := BitVec.ofNat 32 (descField d 40 4)
      let r : Ring := { id := id, enabled := true, fabric := descField d 19 1 == 1, room := room, fn := descField d 20 1
                        d := descField d 21 1, c := descField d 22 1, dbase := descWord d 24, cbase := descWord d 32
                        h := start, tail := start, tailMirrored := start, pint := descField d 44 4, vector := descField d 48 2
                        dbObj := descField d 52 4
                        notifyObj := if descField d 56 4 ≥ 2 ^ 31 then none else some (descField d 56 4) }
      let s := { s with ledger := { s.ledger with rings := s.ledger.rings.filter (fun x => x.id != id) ++ [r] } }
      finishDone (mirrorRing s id) en.n 1 0

/-- RING_SET (R195, R196). -/
def execRingSet (e : Nat) (s : State) : Host.Outcome State Fault Refusal := .next (withEntry s e 0x01 ringSetRun)

/-- A disable on an entry that runs: fetch stops at once (R197). -/
def ringDisableRun (act : Nat) (s : State) (en : Entry) : State :=
  let id : BitVec 12 := BitVec.ofNat 12 (descField en.desc 16 2)
  if descField en.desc 18 1 ≠ act then s
  else if !ringAllowed s en then finishStatus s en.n 0x03 0 0
  else match ringOf s id with
    | none => finishDone s en.n 0 0
    | some r =>
      if id = 0 ∨ r.disabling = some (act, en.n) then (if id = 0 then finishDone s en.n 0 0 else s)
      else if !r.enabled then finishDone s en.n 0 0
      else mirrorRing (updRing s id fun x => { x with enabled := false, disabling := some (act, en.n) }) id

/-- RING_DISABLE_DRAIN (R197). -/
def execRingDisableDrain (e : Nat) (s : State) : Host.Outcome State Fault Refusal :=
  .next (settleDisables (withEntry s e 0x01 (ringDisableRun 1)))

/-- Ends a descriptor's work where it stands: the run of a caravan, the stream, and the moves that no porter has begun. -/
def stopWork (s : State) (e : Nat) (status : Stat) (r16 r24 : Nat) : State :=
  let s := finishStatus s e status r16 r24
  let mine := (movers s).filter (fun m => m.work == some e)
  let s := mine.foldl (fun s m => putMover s (if m.mig = .booked then idle m else { m with work := none })) s
  let runs := (s.engine.caravans.filter (fun v => match v.run with
    | some r => r.e == e
    | none => false)).map (fun v => v.id)
  let s := runs.foldl clearRun s
  let s := { s with maps := { s.maps with streams := s.maps.streams.filter (fun v => v.e != e) } }
  match ledgerEntry s e with
  | some en => applyPins s en
  | none => s

/-- Elastic work of a ring whose promise is size ÷ floor ends at its chunk boundary with status 0x06; a COLL_RUN by the
run-ended message (R268). -/
def endElastic (s : State) (id : BitVec 12) : State :=
  let hit := s.ledger.entries.filter fun x =>
    x.ring == id && !x.adopted && x.st != .mirroring && x.result.isNone && descClass x.desc == 1 && hasFloor (descOp x.desc)
  hit.foldl (fun s x =>
    if descOp x.desc = 0x49 then (match roundOf s x.n with
      | some (c, r) => endRound s c r.params.round 0x06
      | none => stopWork s x.n 0x06 0 0)
    else stopWork s x.n 0x06 x.position.toNat 0) s

/-- RING_DISABLE_END (R197). -/
def execRingDisableEnd (e : Nat) (s : State) : Host.Outcome State Fault Refusal :=
  .next (settleDisables (withEntry s e 0x01 fun s en =>
    let s := ringDisableRun 2 s en
    let id : BitVec 12 := BitVec.ofNat 12 (descField en.desc 16 2)
    match ringOf s id with
    | some r => if r.disabling == some (2, en.n) then endElastic s id else s
    | none => s))

/-! ### The map journal (R349) -/

/-- MAP_JOURNAL_COMPACT (R349): the stewards free space; changes that waited run when their rows come again. -/
def execMapJournalCompact (freed : Nat) (s : State) : Host.Outcome State Fault Refusal :=
  .next (if isRunning s then { s with ledger := { s.ledger with journalUsed := s.ledger.journalUsed - freed } } else s)

end Sys2Proof.Machine
end

