-- ==== Sys2Proof/Machine/FilterCommands.lean ====
section
/-!
DEFINITION. Machine/FilterCommands.lean: FILTER_BOOK, the array and automata descriptors, and the scrubber of match rows
(R293 to R314).
-/

namespace Sys2Proof.Machine

/-! ### Booking (R294, R295) -/

/-- FILTER_BOOK on an entry that runs: it waits for FILTER_BOOK_EFFECT. -/
def filterBookRun (s : State) (en : Entry) : State := if entryRoom en ≠ 0 then finishStatus s en.n 0x03 0 0 else s

/-- FILTER_BOOK (R294). -/
def execFilterBook (e : Nat) (s : State) : Host.Outcome State Fault Refusal := .next (withEntry s e 0x70 filterBookRun)

/-- Filter work of a room that is not done, in the classes that a booking waits for, or best-effort. -/
def filterWorkLeft (s : State) (room : RoomId) (bestEffort : Bool) : List Entry :=
  s.ledger.entries.filter fun x => bookingWork room x && x.st != .mirroring && x.result.isNone
    && (descClass x.desc == 2) == bestEffort

/-- Clamps that other rooms' bookings since the test make (Table 13-1). -/
def bookClamps (s : State) (e : Nat) (room : RoomId) (d : BitVec 512) : State :=
  let s := (List.range 8).foldl (fun s i => clampLate s e (20 + 2 * i) 2 (clampTable s room i (descField d (20 + 2 * i) 2))) s
  clampLate s e 36 4 (clampGroups s room (descField d 36 4))

/-- The table of array i in a booking: kept with its entries if neither its range nor its mode changes. -/
def bookedTable (s : State) (room : RoomId) (d : BitVec 512) (i : Nat) : Option Table :=
  let v := descField d (20 + 2 * i) 2
  let t : Table := { room := room, array := i, first := v % 16, count := v / 16 % 32, ternary := v / 512 % 2 == 1 }
  if t.count = 0 then none
  else match tableOf s room i with
    | some o => if o.first = t.first ∧ o.count = t.count ∧ o.ternary = t.ternary then some o else some t
    | none => some t

/-- The booking replaces the room's whole booking. -/
def applyBooking (s : State) (room : RoomId) (d : BitVec 512) : State :=
  let tables := (List.range 8).filterMap (bookedTable s room d)
  let groups := ((List.range 32).filter (fun g => descField d 36 4 / 2 ^ g % 2 == 1)).map (fun g => (g, room))
  { s with filt := { s.filt with
      tables := s.filt.tables.filter (fun t => t.room != room) ++ tables
      groups := s.filt.groups.filter (fun g => g.2 != room) ++ groups
      automata := s.filt.automata.filter (fun a => a.room != room || a.engines.all (fun k => groups.any (fun g => g.1 == k / 8)))
      booking := s.filt.booking.eraseP (fun b => b.1 == room) } }

/-- FILTER_BOOK_EFFECT (R295): once the room's guaranteed and elastic filter work is done. -/
def execFilterBookEffect (room : RoomId) (s : State) : Host.Outcome State Fault Refusal :=
  .next (match s.filt.booking.find? (fun b => b.1 == room) with
    | none => s
    | some b => match ledgerEntry s b.2 with
      | none => s
      | some en =>
        if !en.started || en.result.isSome || !isRunning s || !(filterWorkLeft s room false).isEmpty then s
        else
          let s := ((filterWorkLeft s room true).filter (fun x => x.started)).foldl
            (fun s x => finishStatus s x.n 0x06 x.position.toNat 0) s
          let s := bookClamps s en.n room en.desc
          match ledgerEntry s en.n with
          | none => s
          | some y => finishDone (applyBooking s room y.desc) en.n 0 y.clamps)

/-! ### Arrays (R301, R302) -/

/-- A replayed descriptor that names a table, automaton or caravan that is absent completes with status 0x04 (Table 15-1). -/
def absentStatus (en : Entry) : Stat := if en.replayed then 0x04 else 0x03

/-- How far an ARRAY_WRITE, or an ARRAY_LOOKUP, has come. -/
structure ListRun where
  status : Stat := 0
  /-- applied, or hits. -/
  done : Nat := 0
  /-- skipped, or false hits. -/
  other : Nat := 0
  clamps : Nat := 0
  deriving DecidableEq, Repr

/-- Applies update record `i` of an ARRAY_WRITE; nothing more once the work has met a revocation or lacks an answer. -/
def writeRecordAt (en : Entry) (p : State × ListRun) (i : Nat) : State × ListRun :=
  let s := p.1
  let r := p.2
  if r.status = 0x06 ∨ isLack r.status then p
  else
    let room := entryRoom en
    let a := descField en.desc 28 1
    let got := ownRead s en.n (descWord en.desc 16 + BitVec.ofNat 64 (96 * i)) 96
    if got.status = 0x06 ∨ isLack got.status then (s, { r with status := got.status })
    else if got.status ≠ 0x00 then (s, { r with status := worse r.status got.status, other := r.other + 1 })
    else match tableOf s room a with
      | none => (s, { r with other := r.other + 1 })
      | some t =>
        let u := readUpdate t.ternary got.bytes
        let c := if u.clamps = 0 then 0 else 1
        match applyUpdate t u with
        | some t' => (updTable s room a (fun _ => t'), { r with done := r.done + 1, clamps := r.clamps + c })
        | none => (s, { r with other := r.other + 1, clamps := r.clamps + c })

/-- ARRAY_WRITE on an entry that runs: the next records that one tile holds. -/
def arrayWriteRun (s : State) (en : Entry) : State :=
  let d := en.desc
  let room := entryRoom en
  let n := descField d 24 4
  let i := nextItem en
  let k := min (n - i) 682
  if isRetired s 0x07 (descField d 28 1) || (en.replayed && (tableOf s room (descField d 28 1)).isNone) then finishStatus s en.n 0x04 0 0
  else
    let s := if descField d 29 1 % 2 = 1 ∧ i = 0 then
        updTable s room (descField d 28 1) (fun t => { t with entries := [] })
      else s
    let r0 : ListRun := { status := tallyStatus en, done := tallyAt en 0, other := tallyAt en 1, clamps := tallyAt en 2 }
    let (s, r) := ((List.range k).map (fun j => i + j)).foldl (writeRecordAt en) (s, r0)
    let s := recordClamps s en (r.clamps - r0.clamps)
    closeChunk s en.n r.status (i + k) (i + k) (i + k) (10000 * (i + k) / max 1 n) [r.done, r.other, r.clamps] (decide (n ≤ i + k))
      r.done (r.other * 2 ^ 32 + r.clamps)

/-- ARRAY_WRITE (R302, R303). -/
def execArrayWrite (e : Nat) (_ : Cells) (s : State) : Host.Outcome State Fault Refusal := .next (withEntry s e 0x71 arrayWriteRun)

/-- Looks up key `i` of an ARRAY_LOOKUP and writes its result. -/
def lookupAt (en : Entry) (p : State × ListRun) (i : Nat) : State × ListRun :=
  let s := p.1
  let r := p.2
  if r.status = 0x06 ∨ isLack r.status then p
  else
    let room := entryRoom en
    let got := ownRead s en.n (descWord en.desc 16 + BitVec.ofNat 64 (32 * i)) 32
    if got.status = 0x06 ∨ isLack got.status then (s, { r with status := got.status })
    else
      let (s, bytes, hit, bad) := if got.status = 0x00 then
          arrayLookup s room (descField en.desc 36 1) (BitVec.ofNat 256 (leVal got.bytes))
        else (s, resultBytes none 0, false, 0)
      let (s, w) := ownWrite s en.n room (descWord en.desc 24 + BitVec.ofNat 64 (16 * i)) bytes
      if w = 0x06 then (s, { r with status := 0x06 })
      else (s, { r with status := worse r.status (worse got.status w), done := r.done + (if hit then 1 else 0), other := r.other + bad })

/-- ARRAY_LOOKUP on an entry that runs: the next keys that one tile holds. -/
def arrayLookupRun (s : State) (en : Entry) : State :=
  let n := descField en.desc 32 4
  let i := nextItem en
  let k := min (n - i) 2048
  if isRetired s 0x07 (descField en.desc 36 1) || (en.replayed && (tableOf s (entryRoom en) (descField en.desc 36 1)).isNone) then finishStatus s en.n 0x04 0 0
  else
    let r0 : ListRun := { status := tallyStatus en, done := tallyAt en 0, other := tallyAt en 1 }
    let (s, r) := ((List.range k).map (fun j => i + j)).foldl (lookupAt en) (s, r0)
    closeChunk s en.n r.status (i + k) (i + k) (i + k) (10000 * (i + k) / max 1 n) [r.done, r.other] (decide (n ≤ i + k)) r.done r.other

/-- ARRAY_LOOKUP (R297, R300, R301). -/
def execArrayLookup (e : Nat) (_ : Cells) (s : State) : Host.Outcome State Fault Refusal := .next (withEntry s e 0x72 arrayLookupRun)

/-- The table and the entry that hold a slot of an array. -/
def entryAt (s : State) (array slot : Nat) : Option (Table × ArrEntry) :=
  match s.filt.tables.find? (fun t => t.array == array && decide (t.first * 65536 ≤ slot) && decide (slot < (t.first + t.count) * 65536)) with
  | none => none
  | some t => (t.entries.find? (fun e => decide (t.first * 65536 + e.slot ≤ slot) &&
      decide (slot < t.first * 65536 + e.slot + entrySlots t))).map fun e => (t, e)

/-- Changes one entry of a table. -/
def updArrEntry (s : State) (t : Table) (e : ArrEntry) (f : ArrEntry → ArrEntry) : State :=
  updTable s t.room t.array fun t => { t with entries := mapIf (fun (x : ArrEntry) => x.slot == e.slot) f t.entries }

/-- A soft error strikes an entry. -/
def strikeEntry (array : Nat) (s : State) (x : RowError) : State :=
  match entryAt s array x.slot with
  | none => s
  | some (t, e) => updArrEntry s t e fun e =>
    { e with row := { e.row with key := e.row.key ^^^ x.key, mask := e.row.mask ^^^ x.mask }, eccBad := e.eccBad || x.ecc }

/-- The scrubber compares a row with its copy: a row that differs is rewritten and counted (R299); an entry whose copy has an
uncorrectable error is removed, as R298 says of such a copy. -/
def scrubRow (s : State) (array slot : Nat) : State :=
  match entryAt s array slot with
  | none => s
  | some (t, e) =>
    if e.eccBad then lostEntry t.room array (updTable s t.room array (fun t => removeEntry t e)) e.slot
    else if e.row = e.copy then s
    else
      let s := updArrEntry s t e fun e => { e with row := e.copy }
      { s with filt := { s.filt with rewrites := bumpCount array 1 s.filt.rewrites } }

/-- ARRAY_SCRUB_STEP (R299). -/
def execArrayScrubStep (array : Nat) (at_ : SlotScrub) (s : State) : Host.Outcome State Fault Refusal :=
  .next (scrubRow (at_.errors.foldl (strikeEntry array) s) array at_.slot)

/-! ### Automata (R308) -/

/-- Engines of an image for a descriptor: parts of a gang, replicas that fit, and the engines taken. -/
def autoEngines (s : State) (en : Entry) (image : List Byte) : Nat × Nat × List Nat :=
  let p := leAt image 6 1
  let free := freeEngines s (entryRoom en) (some en.n)
  let r := min (descField en.desc 29 1) (free.length / max 1 p)
  (p, r, takeGangs p r free)

/-- The test of an AUTO_LOAD reads the image: it is refused where no replica fits; a bad image is for the load to report. -/
def autoLoadTest (s : State) (en : Entry) : State :=
  let len := descField en.desc 24 4
  let got := ownRead s en.n (descWord en.desc 16) len
  if isLack got.status then finishStatus s en.n got.status 0 0
  else if (got.status ≠ 0x00 ∧ got.status ≠ 0x01) ∨ (firstBad got.bytes len).isSome then passTest s en [] en.promise
  else
    let (_, r, gang) := autoEngines s en got.bytes
    if r = 0 then finishRefused s en.n 0x06
    else
      let s := clampLate s en.n 29 1 r
      match ledgerEntry s en.n with
      | some en => passTest s en gang (promiseOf s en.desc en.tA)
      | none => s

/-- AUTO_LOAD on an entry that runs. -/
def autoLoadRun (s : State) (en : Entry) : State :=
  let d := en.desc
  let len := descField d 24 4
  let id := descField d 28 1
  if s.filt.automata.any (fun a => a.id == id) then finishStatus s en.n 0x03 0 0
  else
    let got := ownRead s en.n (descWord d 16) len
    if got.status ≠ 0x00 ∧ got.status ≠ 0x01 then finishStatus s en.n got.status 0 0
    else match firstBad got.bytes len with
      | some c => finishStatus s en.n 0x03 0 (c.part * 2 ^ 56 + c.off)
      | none =>
        let (p, r, gang) := autoEngines s en got.bytes
        if r = 0 then finishStatus s en.n 0x04 0 0
        else
          let s := clampLate s en.n 29 1 r
          let a : Automaton := { id := id, room := entryRoom en, span := leAt got.bytes 8 4
                                 parts := (List.range p).map (loadPart got.bytes), replicas := r, engines := gang }
          finishDone { s with filt := { s.filt with automata := s.filt.automata ++ [a] } } en.n (r * p) 0

/-- AUTO_LOAD (R306, R308): its test while it is not accepted, then its work. -/
def execAutoLoad (e : Nat) (_ : Cells) (s : State) : Host.Outcome State Fault Refusal :=
  .next (withEntry (withTest s e 0x73 autoLoadTest) e 0x73 autoLoadRun)

/-- Scans of an automaton that are accepted and not done. -/
def scansOf (s : State) (room : RoomId) (id : Nat) : List Entry :=
  s.ledger.entries.filter fun x => descOp x.desc == 0x75 && entryRoom x == room && descField x.desc 28 1 == id
    && x.st != .mirroring && x.result.isNone

/-- AUTO_UNLOAD on an entry that runs: after the scans accepted before it, the engines are freed. -/
def autoUnloadRun (s : State) (en : Entry) : State :=
  let room := entryRoom en
  let id := descField en.desc 16 1
  if !s.filt.automata.any (fun a => a.id == id && a.room == room) then finishStatus s en.n (absentStatus en) 0 0
  else if !(scansOf s room id).isEmpty then s
  else finishDone { s with filt := { s.filt with automata := s.filt.automata.filter (fun a => a.id != id) } } en.n 0 0

/-- AUTO_UNLOAD (R308). -/
def execAutoUnload (e : Nat) (s : State) : Host.Outcome State Fault Refusal := .next (withEntry s e 0x74 autoUnloadRun)

/-! ### Scans (R309 to R313) -/

/-- The cause in a failure marker (Table 13-10). -/
def markerCause (st : Stat) : Nat := if st = 0x01 then 1 else if st = 0x03 then 3 else 2

/-- What a range gives: bytes, the markers (line address, cause), and the worst status. -/
structure RangeRead where
  bytes : List Byte := []
  marks : List (Nat × Nat) := []
  status : Stat := 0
  deriving DecidableEq, Repr

/-- Reads a range line by line; `k` bounds the lines. -/
def readRange (s : State) (en : Entry) : Nat → Nat → Nat → RangeRead
  | 0, _, _ => {}
  | k + 1, g, n =>
    if n = 0 then {}
    else
      let m := min n (64 - g % 64)
      let a : Word := BitVec.ofNat 64 g
      let got := if descField en.desc 33 1 = 1 then ownSnapLine s en.n a m else ownReadLine s en.n a m
      if got.status = 0x06 then { status := 0x06 }
      else
        let r := readRange s en k (g + m) (n - m)
        { bytes := got.bytes ++ r.bytes
          marks := if got.status = 0x00 then r.marks else (g / 64 * 64, markerCause got.status) :: r.marks
          status := worse got.status r.status }

/-- One record of the sink: address of the last byte, pattern, flags, priority. -/
structure SinkRec where
  at_ : Nat
  pattern : Nat
  flags : Nat
  prio : Nat
  deriving DecidableEq, Repr

/-- In ascending end address, then pattern (R312). -/
def sinkOrder (l : List SinkRec) : List SinkRec :=
  l.mergeSort (fun a b => decide (a.at_ < b.at_) || (a.at_ == b.at_ && decide (a.pattern ≤ b.pattern)))

/-- How far a scan has come: the range at hand and how much of it is scanned, records found, and the counts. -/
structure ScanRun where
  status : Stat
  i : Nat
  g : Nat
  len : Nat
  off : Nat
  found : Nat
  markers : Nat
  skipped : Nat
  pos : Nat
  clamps : Nat := 0
  deriving DecidableEq, Repr

/-- A scan as its entry's tally holds it. -/
def scanSoFar (en : Entry) : ScanRun :=
  let t := tallyAt en
  { status := tallyStatus en, i := nextItem en, g := t 0, len := t 1, off := t 2, found := t 3, markers := t 4, skipped := t 5
    pos := t 6 }

/-- Reads entry `i` of the range list, unless a range is at hand: one that cannot be read, or is not here, is skipped (R309). -/
def scanNext (s : State) (en : Entry) (r : ScanRun) : ScanRun :=
  if r.off < r.len then r
  else
    let got := ownRead s en.n (descWord en.desc 16 + BitVec.ofNat 64 (16 * r.i)) 16
    let g := leAt got.bytes 0 8
    let len0 := leAt got.bytes 8 8
    let len := min len0 (2 ^ 40)
    if got.status ≠ 0x00 then
      { r with status := worse r.status got.status, i := r.i + 1, skipped := r.skipped + 1, len := 0, off := 0 }
    else
      let c := if len = len0 then 0 else 1
      if !isHome s (homeOf (BitVec.ofNat 64 g)) then { r with i := r.i + 1, skipped := r.skipped + 1, len := 0, off := 0, clamps := c }
      else if len = 0 then { r with i := r.i + 1, len := 0, off := 0, clamps := c }
      else { r with g := g, len := len, off := 0, clamps := c }

/-- Scans the next section of the range at hand, which ends at a tile boundary (R310), and gives its sink records. -/
def scanSection (s : State) (en : Entry) (a : Automaton) (r : ScanRun) : ScanRun × List SinkRec :=
  if r.off ≥ r.len ∨ isLack r.status ∨ r.status = 0x06 then (r, [])
  else
    let d := en.desc
    let lo := r.g + r.off
    let hi := min (r.g + r.len) (lo / 65536 * 65536 + 65536)
    let recordMode := descField d 29 1 == 1
    let from_ := if recordMode then lo else max r.g (lo - a.span)
    let y := readRange s en ((hi - from_) / 64 + 2) from_ (hi - from_)
    let best := descField d 32 1 == 1
    let ms := scanRange a recordMode best (descField d 30 2) from_ y.bytes
    let found := (ms.filter (fun m => decide (lo ≤ from_ + m.off))).map fun m =>
      ({ at_ := from_ + m.off, pattern := m.pattern, flags := if best then 4 else 0, prio := m.prio } : SinkRec)
    let marks := (y.marks.filter (fun m => decide (lo < m.1 + 64))).map fun m =>
      ({ at_ := m.1, pattern := 0xFFFFFF, flags := m.2, prio := 0 } : SinkRec)
    let done := hi - r.g
    ({ r with
      status := worse r.status y.status, off := done, i := if done = r.len then r.i + 1 else r.i
      pos := r.pos + (hi - lo), markers := r.markers + marks.length, found := r.found + found.length + marks.length },
     sinkOrder (found ++ marks))

/-- A replica of an automaton whose engines are all in service. -/
def hasReplica (s : State) (a : Automaton) : Bool :=
  let p := max 1 a.parts.length
  (List.range a.replicas).any fun r => ((a.engines.drop (p * r)).take p).all fun k => !isRetired s 0x08 k

/-- AUTO_SCAN on an entry that runs: its next section. It is run again whole after a replay: a checkpoint in bytes does not
say how many records the sink holds. -/
def autoScanRun (s : State) (en : Entry) : State :=
  let d := en.desc
  match s.filt.automata.find? (fun a => a.id == descField d 28 1 && a.room == entryRoom en) with
  | none => finishStatus s en.n (absentStatus en) 0 0
  | some a =>
    if !hasReplica s a then finishStatus s en.n 0x04 en.position.toNat 0
    else
      let r0 := scanSoFar en
      let (r, recs) := scanSection s en a (scanNext s en r0)
      let cap := descField d 48 8 / 16
      let s := recordClamps s en r.clamps
      let out := (recs.take (cap - r0.found)).flatMap fun m => matchBytes m.at_ m.pattern m.flags m.prio
      let (s, w) := if isLack r.status || r.status == 0x06 then (s, (0x00 : Stat))
        else ownWrite s en.n (entryRoom en) (descWord d 40 + BitVec.ofNat 64 (16 * r0.found)) out
      let cnt := descField d 24 4
      let points := if cnt = 0 then 0
        else (10000 * r.i + (if r.off < r.len then 10000 * r.off / r.len else 0)) / cnt
      closeChunk s en.n (worse r.status w) r.i 0 r.pos points [r.g, r.len, r.off, r.found, r.markers, r.skipped, r.pos]
        (decide (descField d 24 4 ≤ r.i)) (min r.found cap)
        (min (2 ^ 32 - 1) (r.found - cap) * 2 ^ 32 + min 65535 r.markers * 65536 + min 65535 r.skipped)

/-- AUTO_SCAN (R309 to R313). -/
def execAutoScan (e : Nat) (_ : Cells) (s : State) : Host.Outcome State Fault Refusal := .next (withEntry s e 0x75 autoScanRun)

end Sys2Proof.Machine
end

