-- ==== Sys2Proof/Machine/Attention.lean ====
section
/-!
DEFINITION. Machine/Attention.lean: ATTEND, ATTN_MERGE, GATHER and EMB_BAG (R275 to R291).
-/

namespace Sys2Proof.Machine

/-! ### Exact sums of the wide mode (R280) -/

/-- Bits of a term below 2^-149 are discarded, toward zero. -/
def truncNum : Num → Num
  | .fin neg m e =>
    if e ≥ -149 then .fin neg m e
    else if e + (bitLen m : Int) ≤ -149 then .fin neg 0 (-149)
    else .fin neg (m / 2 ^ (-149 - e).toNat) (-149)
  | x => x

/-- The exact sum of terms in the wide mode. -/
def wideSum (l : List Num) : Acc := l.foldl (fun a x => accAddNum a (truncNum x) false) {}

/-- Rounded once to FP32. -/
def fp32 (x : Num) : Nat := (encodeNum 0 x).1

def isFinite : Num → Bool
  | .fin _ _ _ => true
  | _ => false

/-- The least integer at or above a finite number. -/
def numCeil : Num → Int
  | .fin neg m e =>
    let v : Int := if neg then -(m : Int) else m
    if 0 ≤ e then v * (2 ^ e.toNat : Nat) else -((-v) / (2 ^ (-e).toNat : Nat))
  | _ => 0

/-- An integer as a number. -/
def intNum (v : Int) : Num := .fin (decide (v < 0)) v.natAbs 0

/-- A quotient, with a bit below it that says whether it is inexact; none for a zero divisor. -/
def exactQuot : Num → Num → Option Num
  | .fin a m e, .fin b n f =>
    if n = 0 then none
    else
      let k := bitLen n + 96
      let q := m * 2 ^ k / n
      let sticky := if m * 2 ^ k % n = 0 then 0 else 1
      some (.fin (a != b) (2 * q + sticky) (e - f - (k : Int) - 1))
  | .fin _ _ _, .inf _ => some (.fin false 0 0)
  | .inf a, .fin b n _ => if n = 0 then none else some (.inf (a != b))
  | _, _ => some .nan

/-! ### Partials (R280, R281, R283) -/

/-- A partial of one head. -/
inductive Part where
  | empty
  | nan
  | val (m : Int) (l : Nat) (o : List Nat)
  deriving DecidableEq, Repr

/-- A score, rounded once and held to ±2^24. -/
def score (q k : List Num) (s2 : Num) : Num :=
  let dot := wideSum ((q.zip k).map fun x => (exactMul x.1 x.2).1)
  let top : Num := .fin false 1 24
  match decodeNum 0 (fp32 (exactMul (accNum dot) s2).1) with
  | .inf neg => .fin neg 1 24
  | y => if numLt top y then top else if numLt y (.fin true 1 24) then .fin true 1 24 else y

/-- The larger of two numbers. -/
def numMax (a b : Num) : Num := if numLt a b then b else a

/-- The partial of one head over the tokens of one block: rows of keys and values. -/
def blockPart (q : List Num) (rows : List (List Num × List Num)) (d : Nat) (s2 : Num) : Part :=
  if rows.isEmpty then .empty
  else if !q.all isFinite || rows.any (fun r => !r.1.all isFinite || !r.2.all isFinite) then .nan
  else
    let xs := rows.map fun r => score q r.1 s2
    let m := numCeil (xs.tail.foldl numMax (xs.headD (.fin false 0 0)))
    let ps := xs.map fun x => decodeNum 0 (elExp2 (fp32 (exactSum [x, intNum (-m)]).1)).1
    let o := (List.range d).map fun c =>
      (accRound (wideSum ((ps.zip rows).map fun y => (exactMul y.1 (y.2.2.getD c (.fin false 0 0))).1)) 0).1
    .val m (accRound (wideSum ps) 0).1 o

/-- A number times 2^k. -/
def scaled (x : Num) (k : Int) : Num :=
  match x with
  | .fin neg m e => .fin neg m (e + k)
  | y => y

/-- The exact L and O of a merge, with M; none where it is empty or NaN. -/
def mergeSums (d : Nat) (l : List Part) : Part ⊕ (Int × Acc × List Acc) :=
  if l.any (fun p => p == .nan) then .inl .nan
  else
    let vs := l.filterMap fun p => match p with
      | .val m l o => some (m, l, o)
      | _ => none
    match vs with
    | [] => .inl .empty
    | v :: _ =>
      let top := (vs.map (fun y => y.1)).foldl max v.1
      let sum := fun (f : Int × Nat × List Nat → Nat) => wideSum (vs.map fun y => scaled (decodeNum 0 (f y)) (y.1 - top))
      .inr (top, sum (fun y => y.2.1), (List.range d).map fun c => sum (fun y => y.2.2.getD c 0))

/-- The merge of partials as a partial. -/
def mergeParts (d : Nat) (l : List Part) : Part :=
  match mergeSums d l with
  | .inl p => p
  | .inr (m, a, os) => .val m (accRound a 0).1 (os.map fun o => (accRound o 0).1)

/-- The normalised merge, d values of an output type. -/
def normParts (d t : Nat) (l : List Part) : List Nat :=
  match mergeSums d l with
  | .inl .nan => List.replicate d (tyNan t)
  | .inl _ => List.replicate d 0
  | .inr (_, a, os) => os.map fun o =>
    match exactQuot (accNum o) (accNum a) with
    | some q => (encodeNum t q).1
    | none => Config.zeroDivisor t (accRound o 0).1

/-- Bytes of a head's partial (Table 12-3). -/
def partBytes (d : Nat) : Part → List Byte
  | .empty => leBytes 4 0x80000000 ++ leBytes 4 0 ++ List.replicate (4 * d) 0
  | .nan => leBytes 4 0x7FFFFFFF ++ leBytes 4 0x7FC00000 ++ (List.replicate d 0x7FC00000).flatMap (leBytes 4)
  | .val m l o => leBytes 4 (m % (2 ^ 32 : Int)).toNat ++ leBytes 4 l ++ o.flatMap (leBytes 4)

/-- A head's partial as a record holds it. -/
def readPart (d : Nat) (b : List Byte) : Part :=
  let m := leAt b 0 4
  if m = 0x7FFFFFFF then .nan
  else if m = 0x80000000 then .empty
  else .val (signedOf 32 m) (leAt b 4 4) ((List.range d).map fun c => leAt b (8 + 4 * c) 4)

/-- Zeros up to a multiple of 64. -/
def padTo64 (b : List Byte) : List Byte := b ++ List.replicate ((64 - b.length % 64) % 64) 0

/-- The flag bit of a failed read (Table 12-3). -/
def causeFlag (st : Stat) : Nat := if st = 0x01 then 4 else if st = 0x03 then 64 else if st = 0x00 then 0 else 8

/-- What ends a unit of work before it is whole: answers it lacks, or a revocation. -/
def stopOf (l : List Stat) : Stat := (l.filter (fun st => isLack st || st == 0x06)).foldl worse 0x00

/-- The header of a partial record. -/
def partHead (tokens flags : Nat) : List Byte := leBytes 4 (tokens % 2 ^ 32) ++ leBytes 2 flags ++ List.replicate 10 0

/-- Completion counts over the flags of the records written, and the status (R284). -/
def flagCounts (l : List Nat) : Nat × Stat :=
  let n := fun (m : Nat) => min 65535 (l.filter (fun f => f &&& m != 0)).length
  let has := fun (m : Nat) => l.any (fun f => f &&& m != 0)
  (n 1 * 2 ^ 48 + n 2 * 2 ^ 32 + n 76 * 2 ^ 16 + n 16,
    if has 8 then 0x04 else if has 64 then 0x03 else if has 4 then 0x01 else 0x00)

/-! ### ATTEND (R276 to R279, R284) -/

/-- A block list as read: entries with their tokens, whether it is valid, the flags of its reads, and what stopped them. -/
structure BlockList where
  blocks : List (Word × Word × Nat) := []
  tokens : Nat := 0
  valid : Bool := true
  flags : Nat := 0
  clamps : Nat := 0
  stop : Stat := 0
  deriving DecidableEq, Repr

/-- Reads a block list (Table 12-1) of at most `most` tokens. -/
def readBlocks (s : State) (en : Entry) (g : Word) (bt most : Nat) : BlockList :=
  let h := ownRead s en.n g 16
  let t0 := leAt h.bytes 4 4
  let okHead := leAt h.bytes 0 2 == 6 && leAt h.bytes 2 2 == 0 && leAt h.bytes 8 8 == 0
  if h.status ≠ 0x00 ∨ !okHead then { valid := false, flags := causeFlag h.status, stop := stopOf [h.status] }
  else
    let t := min t0 most
    let n := (t + bt - 1) / bt
    let b := ownRead s en.n (g + 16) (16 * n)
    let base := fun (i k : Nat) => leAt b.bytes (16 * i + k) 8
    let ok := b.status == 0x00 && (List.range n).all fun i => base i 0 % 65536 == 0 && base i 8 % 65536 == 0
    if !ok then { valid := false, flags := causeFlag b.status, stop := stopOf [b.status] }
    else
      { blocks := (List.range n).map fun i => (BitVec.ofNat 64 (base i 0), BitVec.ofNat 64 (base i 8), min bt (t - i * bt))
        tokens := t, clamps := if t < t0 then 1 else 0 }

/-- Numbers of a row: `n` elements of a type. -/
def rowNums (t n : Nat) (b : List Byte) : List Num :=
  (List.range n).map fun i => decodeNum t (leAt b (i * (tyWidth t / 8)) (tyWidth t / 8))

/-- Rows of a block for one KV head, and the statuses of their reads. -/
def readRows (s : State) (en : Entry) (blk : Word × Word × Nat) (j d t : Nat) : List (List Num × List Num) × List Stat :=
  let w := d * (tyWidth t / 8)
  let rows := (List.range blk.2.2).map fun r =>
    let off : Word := BitVec.ofNat 64 (j * 65536 + r * w)
    let k := ownRead s en.n (blk.1 + off) w
    let v := ownRead s en.n (blk.2.1 + off) w
    ((rowNums t d k.bytes, rowNums t d v.bytes), [k.status, v.status])
  (rows.map (fun r => r.1), rows.flatMap (fun r => r.2))

/-- The flags of several reads. -/
def causeFlags (l : List Stat) : Nat := l.foldl (fun f st => f ||| causeFlag st) 0

/-- What one sequence of an ATTEND or ATTN_MERGE gives; `stop` is not 0x00 where it is not whole. -/
structure SeqOut where
  record : List Byte
  flags : Nat
  bytes : Nat
  clamps : Nat
  stop : Stat
  deriving DecidableEq, Repr

/-- One sequence of an ATTEND. -/
def attendSeq (s : State) (en : Entry) (i : Nat) : State × SeqOut :=
  let ds := en.desc
  let d := 32 * descField ds 36 1
  let hkv := descField ds 37 1
  let g := descField ds 38 1
  let t := descField ds 35 1
  let bt := 65536 / (d * (tyWidth t / 8))
  let stride := queryBytes ds
  let q := ownRead s en.n (descWord ds 16 + BitVec.ofNat 64 (i * stride)) stride
  let (s, hit, prefix_) :=
    if descField ds 34 1 = 0xFF then (s, 0, ({} : BlockList))
    else
      let (s, res, ok, _) := arrayLookup s (entryRoom en) (descField ds 34 1) (BitVec.ofNat 256 (leAt q.bytes 0 32))
      if ok then (s, 1, readBlocks s en (BitVec.ofNat 64 (leAt res 0 8 / 64 * 64)) bt 1048576) else (s, 2, {})
  let own := if leAt q.bytes 32 8 / 16 = 0 then ({} : BlockList)
    else readBlocks s en (BitVec.ofNat 64 (leAt q.bytes 32 8 / 16 * 16)) bt (1048576 - prefix_.tokens)
  let blocks := prefix_.blocks ++ own.blocks
  let s2 := decodeNum 0 (descField ds 40 4)
  let groups := (List.range hkv).map fun j =>
    let rows := blocks.map fun b => readRows s en b j d t
    let heads := (List.range g).map fun k =>
      let qv := rowNums 0 d ((q.bytes.drop (64 + 4 * d * (j * g + k))).take (4 * d))
      mergeParts d (rows.map fun r => blockPart qv r.1 d s2)
    (heads, rows.flatMap (fun r => r.2))
  let heads := groups.flatMap (fun y => y.1)
  let sts := q.status :: groups.flatMap (fun y => y.2)
  let tokens := prefix_.tokens + own.tokens
  let flags := hit ||| causeFlags sts ||| prefix_.flags ||| own.flags
    ||| (if prefix_.valid && own.valid then 0 else 16) ||| (if heads.any (fun p => p == .nan) then 32 else 0)
  (s, { record := padTo64 (partHead tokens flags ++ heads.flatMap (partBytes d)), flags := flags
        bytes := 2 * hkv * d * (tyWidth t / 8) * tokens, clamps := own.clamps + prefix_.clamps
        stop := stopOf (prefix_.stop :: own.stop :: sts) })

/-- Writes the record of sequence `i`, and ends the chunk, which is one sequence (R197). Its tally holds the position in bytes,
the records written and the flags of each. -/
def putRecord (s : State) (en : Entry) (stride i : Nat) (o : SeqOut) : State :=
  let pos := tallyAt en 0
  if o.stop ≠ 0x00 then closeChunk s en.n o.stop i i pos 0 (en.tally.drop 2) false 0 0
  else
    let (s, w) := ownWrite s en.n (entryRoom en) (descWord en.desc 24 + BitVec.ofNat 64 (i * stride)) o.record
    let written := tallyAt en 1 + (if w = 0x00 ∨ w = 0x01 then 1 else 0)
    let flags := en.tally.drop 4 ++ [o.flags]
    let (counts, st) := flagCounts flags
    let last := decide (descField en.desc 32 2 ≤ i + 1)
    let worst := worse (tallyStatus en) w
    closeChunk (recordClamps s en o.clamps) en.n (if last then worse worst st else worst) (i + 1) (i + 1) (pos + o.bytes)
      (10000 * (i + 1) / max 1 (descField en.desc 32 2))
      ((pos + o.bytes) :: written :: flags) last written counts

/-- ATTEND on an entry that runs: its next sequence. -/
def attendRun (s : State) (en : Entry) : State :=
  let i := nextItem en
  let (s, o) := attendSeq s en i
  putRecord s en (partialBytes en.desc) i o

/-- ATTEND (R275 to R285). -/
def execAttend (e : Nat) (_ : Cells) (s : State) : Host.Outcome State Fault Refusal := .next (withEntry s e 0x60 attendRun)

/-! ### ATTN_MERGE (R287) -/

/-- One source record: heads, tokens and flags; one that cannot be read is NaN in every head. -/
def readRecord (s : State) (en : Entry) (src : Word) (i : Nat) : List Part × Nat × Nat × Stat :=
  let ds := en.desc
  let d := 32 * descField ds 36 1
  let hq := descField ds 37 1 * descField ds 38 1
  let p := partialBytes ds
  let got := ownRead s en.n (src + BitVec.ofNat 64 (i * p)) p
  if got.status ≠ 0x00 then (List.replicate hq .nan, 0, causeFlag got.status ||| 32, got.status)
  else ((List.range hq).map (fun h => readPart d (got.bytes.drop (16 + (8 + 4 * d) * h))), leAt got.bytes 0 4, leAt got.bytes 4 2 % 128, 0x00)

/-- One sequence of an ATTN_MERGE. -/
def mergeSeq (s : State) (en : Entry) (srcs : List Word) (listStatus : Stat) (i : Nat) : SeqOut :=
  let ds := en.desc
  let d := 32 * descField ds 36 1
  let hq := descField ds 37 1 * descField ds 38 1
  let out := descField ds 35 1
  let recs := srcs.map fun g => readRecord s en g i
  let head := fun (h : Nat) => recs.map fun r => r.1.getD h .empty
  let tokens := (recs.map (fun r => r.2.1)).sum
  let merged := (List.range hq).map fun h => mergeParts d (head h)
  let flags := recs.foldl (fun f r => f ||| r.2.2.1) (causeFlag listStatus) ||| (if merged.any (fun p => p == .nan) then 32 else 0)
  let body := if out = 0 then merged.flatMap (partBytes d)
    else (List.range hq).flatMap fun h => (normParts d (out - 1) (head h)).flatMap (leBytes (if out = 1 then 4 else 2))
  { record := padTo64 (partHead tokens flags ++ body), flags := flags, bytes := srcs.length * partialBytes ds, clamps := 0
    stop := stopOf (listStatus :: recs.map (fun r => r.2.2.2)) }

/-- ATTN_MERGE on an entry that runs: its next sequence. -/
def attnMergeRun (s : State) (en : Entry) : State :=
  let d := en.desc
  let n := descField d 34 1
  let i := nextItem en
  let lst := ownRead s en.n (descWord d 16) (8 * n)
  let srcs := (List.range n).map fun i => BitVec.ofNat 64 (leAt lst.bytes (8 * i) 8)
  putRecord s en (mergeOutBytes d) i (mergeSeq s en srcs lst.status i)

/-- ATTN_MERGE (R281, R287). -/
def execAttnMerge (e : Nat) (_ : Cells) (s : State) : Host.Outcome State Fault Refusal := .next (withEntry s e 0x61 attnMergeRun)

/-! ### GATHER (R288, R289) -/

/-- A GFA plus an offset, modulo 2^48 within its home. -/
def offsetIn (g : Word) (off : Nat) : Word := BitVec.ofNat 64 (g.toNat / 2 ^ 48 * 2 ^ 48 + (g.toNat + off) % 2 ^ 48)

/-- Progress of a gather. -/
structure GatherRun where
  status : Stat := 0
  written : Nat := 0
  outside : Nat := 0
  bad : Nat := 0
  deriving DecidableEq, Repr

/-- The index of element `i`, or its place in strides. -/
def gatherIndex (s : State) (en : Entry) (i : Nat) : Nat × Stat :=
  let d := en.desc
  if descField d 46 1 = 2 then (i, 0x00)
  else
    let w := if descField d 46 1 = 0 then 4 else 8
    let got := ownRead s en.n (descWord d 32 + BitVec.ofNat 64 (w * i)) w
    (leVal got.bytes, got.status)

/-- Copies element `i`. -/
def gatherOne (en : Entry) (p : State × GatherRun) (i : Nat) : State × GatherRun :=
  let s := p.1
  let r := p.2
  if r.status = 0x06 ∨ isLack r.status then p
  else
    let d := en.desc
    let sz := descField d 44 2
    let limit := descField d 48 8
    let (idx, st) := gatherIndex s en i
    let isOut := descField d 46 1 != 2 && st == 0x00 && limit != 0 && decide (idx ≥ limit)
    let step := if descField d 46 1 = 2 then descField d 32 8 else sz
    let got : Got := if st ≠ 0x00 ∨ isOut then { bytes := List.replicate sz 0xFF, status := st }
      else ownRead s en.n (offsetIn (descWord d 16) (idx * step)) sz
    if got.status = 0x06 ∨ isLack got.status then (s, { r with status := got.status })
    else
      let data := if got.status = 0x00 ∧ !isOut then got.bytes else List.replicate sz 0xFF
      let (s, w) := ownWrite s en.n (entryRoom en) (descWord d 24 + BitVec.ofNat 64 (i * sz)) data
      if w = 0x06 then (s, { r with status := 0x06 })
      else (s, { r with
        written := r.written + (if w = 0x00 ∨ w = 0x01 then sz else 0), outside := r.outside + (if isOut then 1 else 0)
        bad := r.bad + (if got.status = 0x00 then 0 else 1), status := worse r.status (worse got.status w) })

/-- GATHER on an entry that runs: the elements that the next tile of the destination holds. -/
def gatherRun (s : State) (en : Entry) : State :=
  let n := descField en.desc 40 4
  let sz := descField en.desc 44 2
  let i := nextItem en / max 1 sz
  let k := min (n - i) (max 1 (65536 / max 1 sz))
  let r0 : GatherRun := { status := tallyStatus en, written := tallyAt en 0, outside := tallyAt en 1, bad := tallyAt en 2 }
  let (s, r) := ((List.range k).map (fun j => i + j)).foldl (gatherOne en) (s, r0)
  closeChunk s en.n r.status ((i + k) * sz) ((i + k) * sz) ((i + k) * sz) (10000 * (i + k) / max 1 n) [r.written, r.outside, r.bad]
    (decide (n ≤ i + k)) r.written (r.outside * 2 ^ 32 + r.bad)

/-- GATHER (R288, R289). -/
def execGather (e : Nat) (_ : Cells) (s : State) : Host.Outcome State Fault Refusal := .next (withEntry s e 0x62 gatherRun)

/-! ### EMB_BAG (R290, R291) -/

/-- Progress over the bags. -/
structure BagRun where
  status : Stat := 0
  rows : Nat := 0
  bad : Nat := 0
  clamps : Nat := 0
  off : Nat := 0
  deriving DecidableEq, Repr

/-- A 32-bit value of a list. -/
def listValue (s : State) (en : Entry) (g : Word) (i : Nat) : Nat × Stat :=
  let got := ownRead s en.n (g + BitVec.ofNat 64 (4 * i)) 4
  (leVal got.bytes, got.status)

/-- One element of a bag's result from its rows' elements (R291). -/
def bagElement (op t out : Nat) (l : List Nat) : Nat :=
  match l with
  | [] => 0
  | v :: rest =>
    if op = 2 then (elCvt t out (rest.foldl (fun a b => (elMaxMin t true a b).1) v)).1
    else
      let a := l.foldl (fun a x => (accAdd a t x false).1) {}
      if op = 0 then (accRound a out).1
      else match exactQuot (accNum a) (intNum l.length) with
        | some q => (encodeNum out q).1
        | none => 0

/-- Reduces bag `b`. -/
def bagOne (en : Entry) (p : State × BagRun) (b : Nat) : State × BagRun :=
  let s := p.1
  let r := p.2
  if r.status = 0x06 ∨ isLack r.status then p
  else
    let ds := en.desc
    let d := descField ds 52 2
    let t := descField ds 54 1
    let out := descField ds 56 1
    let w := tyWidth t / 8
    let ow := tyWidth out / 8
    let (hi, st) := listValue s en (descWord ds 40) (b + 1)
    let raised := st == 0x00 && decide (hi < r.off)
    let hi := if st = 0x00 then max hi r.off else r.off
    let rows : List (List Byte × Stat) := (List.range (hi - r.off)).map fun k =>
      let (idx, a) := listValue s en (descWord ds 32) (r.off + k)
      let got : Got := if a ≠ 0x00 then { bytes := [], status := a }
        else ownRead s en.n (offsetIn (descWord ds 16) (idx * d * w)) (d * w)
      (got.bytes, got.status)
    let worst := (rows.map (fun y => y.2)).foldl worse st
    let failed : Bool := decide (st ≠ 0x00) || rows.any (fun y => decide (y.2 ≠ 0x00))
    let data := if failed then List.replicate (d * ow) 0xFF
      else (List.range d).flatMap fun c => leBytes ow (bagElement (descField ds 55 1 % 16) t out (rows.map fun y => leAt y.1 (c * w) w))
    if worst = 0x06 ∨ isLack worst then (s, { r with status := worst })
    else
      let (s, wst) := ownWrite s en.n (entryRoom en) (descWord ds 24 + BitVec.ofNat 64 (b * d * ow)) data
      if wst = 0x06 then (s, { r with status := 0x06 })
      else (s, { r with rows := r.rows + rows.length, bad := r.bad + (if failed then 1 else 0)
                        clamps := r.clamps + (if raised then 1 else 0), off := hi, status := worse r.status (worse worst wst) })

/-- EMB_BAG on an entry that runs: the bags whose rows the next tile of the destination holds. -/
def embBagRun (s : State) (en : Entry) : State :=
  let d := en.desc
  let n := descField d 48 4
  let row := max 1 (descField d 52 2 * (tyWidth (descField d 56 1) / 8))
  let i := nextItem en / row
  let k := min (n - i) (max 1 (65536 / row))
  let (lo, st) : Nat × Stat := if en.tally.isEmpty then listValue s en (descWord d 40) i else (tallyAt en 3, tallyStatus en)
  let r0 : BagRun := { status := st, rows := tallyAt en 0, bad := tallyAt en 1, clamps := tallyAt en 2
                       off := if st = 0x00 ∨ !en.tally.isEmpty then lo else 0 }
  let (s, r) := ((List.range k).map (fun j => i + j)).foldl (bagOne en) (s, r0)
  closeChunk (recordClamps s en (r.clamps - r0.clamps)) en.n r.status ((i + k) * row) ((i + k) * row) ((i + k) * row)
    (10000 * (i + k) / max 1 n) [r.rows, r.bad, r.clamps, r.off] (decide (n ≤ i + k)) r.rows r.bad

/-- EMB_BAG (R290, R291). -/
def execEmbBag (e : Nat) (_ : Cells) (s : State) : Host.Outcome State Fault Refusal := .next (withEntry s e 0x63 embBagRun)

end Sys2Proof.Machine
end

