-- ==== Sys2Proof/Machine/Keys.lean ====
section
/-!
DEFINITION. Machine/Keys.lean: the key hierarchy of Table 16-1, the pair secret and its key record (R372, R373).
-/

namespace Sys2Proof.Machine

/-! ### Keys of the device (Table 16-1) -/

def devidSeed (s : State) : BitVec 256 := kmac 256 s.fuses.uds.toNat [] .devid
def devidPk (s : State) : BitVec 15616 := Config.mldsaPk (devidSeed s)

/-- SHA3-384 of the DevID public key. -/
def devidHash (s : State) : BitVec 384 := Config.sha3 (leBytes 1952 (devidPk s).toNat)

/-- The seed of the alias key pair for a value of E_2. -/
def aliasFor (s : State) (e2 : BitVec 384) : BitVec 256 := kmac 256 s.fuses.uds.toNat (hashBytes e2) .alias_

/-- A signature of the alias key. -/
def aliasSign (s : State) (l : List Byte) : BitVec 26472 := Config.mldsaSign s.boot.measure.aliasSeed l

def storeSeed (s : State) : BitVec 512 := kmac 512 s.fuses.uds.toNat [] .store

/-- ek_s of this switch. -/
def storeEk (s : State) : BitVec 12544 := Config.kemEk (storeSeed s)

/-- S_s (R372). -/
def storageSecret (s : State) : BitVec 256 :=
  kmac 256 (Config.kemSs (storeEk s) (kmac 256 s.fuses.uds.toNat [] .self)).toNat [] .storage

/-- The binding key pair's seed for a set and a generation (R382). -/
def bindSeed (s : State) (set gen : Nat) : BitVec 512 := kmac 512 s.fuses.uds.toNat (leBytes 4 set ++ leBytes 4 gen) .bind

/-! ### The pair secret (R372, R373, R380) -/

/-- m of this switch toward its twin. -/
def pairMessage (s : State) : BitVec 256 :=
  kmac 256 s.fuses.uds.toNat (leBytes 2 (twinId s).toNat ++ leBytes 4 (pairGen s).toNat) .pairM

/-- S_p: S_s without a twin; with one, made of both halves, and absent until the partner's ciphertext is known. -/
def pairSecret (s : State) : Option (BitVec 256) :=
  if !twinPresent s then some (storageSecret s)
  else match s.keys.peer with
    | some (g, ek, ct) =>
      if g = pairGen s then
        let own := (Config.kemSs ek (pairMessage s)).toNat
        let other := (Config.kemDecaps (storeSeed s) ct).toNat
        let key := if selfId s < twinId s then own + other * 2 ^ 256 else other + own * 2 ^ 256
        some (kmac 256 key (leBytes 4 g.toNat) .pair)
      else none
    | none => none

/-- The 4 KiB key record (R373). -/
def keyRecord (s : State) : List Byte :=
  let g := pairGen s
  let (ct, ek) : BitVec 12544 × BitVec 12544 := match s.keys.peer with
    | some (_, ek, ct) => (ct, ek)
    | none => (0, 0)
  let l := leBytes 2 0x000B ++ leBytes 2 (selfId s).toNat ++ leBytes 4 g.toNat ++ leBytes 1568 ct.toNat ++ leBytes 1568 ek.toNat
  l ++ List.replicate (4096 - l.length) 0

/-- Writes the key record, in pieces of 128 B: area 4 at the twin, area 5 at the fallback ledger extent. -/
def writeKeyRecord (s : State) : State :=
  let ps := (piecesOf 128 32 (keyRecord s)).zipIdx
  let put := fun (s : State) (area : Nat) => ps.foldl (fun s p => say s (.mirror area p.2 (BitVec.ofNat 1024 (leVal p.1)))) s
  let s := if twinPresent s then ps.foldl (fun s p => mirrorSend s 4 p.2 0 p.1) (put s 4) else s
  if ledgerExtPresent s then put s 5 else s

/-- Derives S_p from what is known now. -/
def refreshPair (s : State) : State := { s with keys := { s.keys with sP := pairSecret s } }

end Sys2Proof.Machine
end

