-- ==== Sys2Proof/Machine/Session.lean ====
section
/-!
DEFINITION. Machine/Session.lean: link sessions on fabric and bridge ports (R375 to R381), LINK_UP, and the updates of
their keys (R378, R379, R409). Fabric ports are 0 to 127, bridge ports 128 to 143.
-/

namespace Sys2Proof.Machine

/-! ### Lanes (R364, Tables 15-8, 17-5) -/

/-- Whether a fabric lane is one of port `n`. -/
def onFabPort (s : State) (lane n : Nat) : Bool :=
  fabEn s n && fabGroup s n == lane / 8 && decide (fabFirst s n ≤ lane % 8) && decide (lane % 8 < fabFirst s n + fabWidth s n)

/-- The bridge port of a bridge lane: a 1.6 Tb/s port takes its whole group. -/
def brgPortOf (s : State) (lane : Nat) : Nat :=
  let even := 2 * (lane / 8)
  if bitsAt (brgReg s even) 62 1 = 0 ∨ lane % 8 < 4 then even else even + 1

/-- The widest of `w`, `w / 2`, `w / 4` ... lanes, down to `lo`, of which an aligned part has no retired lane: lanes of a
kind from `first` on. -/
def widest (s : State) (code first w lo : Nat) : Nat → Nat → Nat
  | 0, _ => 0
  | n + 1, k =>
    if k < lo then 0
    else if (List.range (w / k)).any (fun j => (List.range k).all fun i => !isRetired s code (first + j * k + i)) then k
    else widest s code first w lo n (k / 2)

/-- Lanes on which a fabric port can train: all of them, or the widest aligned part of its lanes without a retired one;
none where not even two lanes are left. -/
def fabTrainable (s : State) (n : Nat) : Nat :=
  widest s 0x02 (8 * fabGroup s n + fabFirst s n) (fabWidth s n) 2 4 (fabWidth s n)

/-- Lanes of a bridge port: 8 at 1.6 Tb/s, 4 at 800 Gb/s, halved after retirements down to one. -/
def brgTrainable (s : State) (k : Nat) : Nat :=
  if bitsAt (brgReg s k) 62 1 = 0 then widest s 0x03 (8 * (k / 2)) 8 1 4 8
  else widest s 0x03 (8 * (k / 2) + 4 * (k % 2)) 4 1 4 4

/-- Lanes of a flex port: four, or two after a retirement. -/
def flexTrainable (s : State) (k : Nat) : Nat := widest s 0x04 (4 * k) 4 2 4 4

/-! ### Session messages (R375, R381) -/

/-- Bytes 8 to 407 of one session flit (Table 16-2). -/
def sessionFlit (msg hs idx count : Nat) (frag : List Byte) : List Byte :=
  beBytes 1 0x10 ++ beBytes 1 msg ++ beBytes 2 hs ++ beBytes 2 idx ++ beBytes 2 count ++ beBytes 2 frag.length
    ++ List.replicate 6 0 ++ frag ++ List.replicate (384 - frag.length) 0

/-- The flits of a message: fragments of at most 384 B, in order. -/
def sessionFlits (msg hs : Nat) (l : List Byte) : List (List Byte) :=
  let fs := if l.isEmpty then [[]] else piecesOf 384 (l.length / 384 + 1) l
  fs.zipIdx.map fun f => sessionFlit msg hs f.2 fs.length f.1

/-- A control frame of a bridge port: it is numbered and kept until acknowledged (R406, R407). -/
def sendControl (s : State) (k : Nat) (content : List Byte) : State :=
  match brgPort s k with
  | none => s
  | some q =>
    let s := updBrg s k fun q => { q with
      unacked := q.unacked ++ [{ seq := q.txSeq, packets := [], control := true, content := content, sentAt := s.time.now }]
      txSeq := q.txSeq + 1, pn := q.pn + 1, lastSent := s.time.now, ackOwed := none }
    say s (.bridge k 2 q.txSeq q.rxSeq (0, 0) [] content false)

/-- Sends the flits of a session message on a port. -/
def sendSession (s : State) (n msg hs : Nat) (l : List Byte) : State :=
  (sessionFlits msg hs l).foldl (fun s f => if n < 128 then sendCtl s n 0x10 f else sendControl s (n - 128) f) s

/-! ### The handshake of a port -/

/-- The session of a port, and the handshake inside it. -/
def sessOf (s : State) (n : Nat) : Option (Session × Option Session) :=
  if n < 128 then (fabPort s n).map fun q => (q.sess, q.resess)
  else (brgPort s (n - 128)).map fun q => (q.sess, q.resess)

/-- Whether the port's link is trained. -/
def trained (s : State) (n : Nat) : Bool :=
  if n < 128 then (match fabPort s n with
    | some q => q.up
    | none => false)
  else (match brgPort s (n - 128) with
    | some q => q.up
    | none => false)

/-- Sets the session of a port, and the handshake inside it. -/
def putSess (s : State) (n : Nat) (a : Session) (b : Option Session) : State :=
  if n < 128 then updFab s n fun q => { q with sess := a, resess := b }
  else updBrg s (n - 128) fun q => { q with sess := a, resess := b }

/-- The handshake under way on a port (R376, R379). -/
def shaking (s : State) (n : Nat) : Option Session :=
  match sessOf s n with
  | some (a, none) => if 1 ≤ a.phase ∧ a.phase ≤ 5 then some a else none
  | some (_, some b) => if 1 ≤ b.phase ∧ b.phase ≤ 5 then some b else none
  | none => none

/-- Changes the handshake under way. -/
def putShaking (s : State) (n : Nat) (h : Session) : State :=
  match sessOf s n with
  | some (_, none) => putSess s n h none
  | some (a, some _) => putSess s n a (some h)
  | none => s

/-- Sends a handshake message and keeps it for TH. -/
def sendStep (s : State) (n : Nat) (h : Session) (msg : Nat) (l : List Byte) : State :=
  sendSession (putShaking s n { h with transcript := h.transcript ++ [(msg, true, l)] }) n msg h.hs.toNat l

/-- A message of the handshake is received once. -/
def hasMsg (h : Session) (msg : Nat) (own : Bool) : Bool := h.transcript.any fun m => m.1 == msg && m.2.1 == own

/-- The messages up to a step, in order of the steps, the initiator's first within one step. -/
def messagesTo (h : Session) (last : Nat) : List Byte :=
  ((List.range (last + 1)).flatMap fun c =>
    (h.transcript.filter (fun m => m.1 == c && (m.2.1 == h.initiator)))
      ++ (h.transcript.filter (fun m => m.1 == c && (m.2.1 != h.initiator)))).flatMap fun m => m.2.2

/-- TH over the messages up to a message code (R376). -/
def thOf (h : Session) (last : Nat) : List Byte := hashBytes (Config.sha3 (messagesTo h last))

/-- The FINISHED value of one role (Table 16-3). -/
def finishedMac (h : Session) (ofInitiator : Bool) : BitVec 256 :=
  kmac 256 h.kHs.toNat (thOf h 5) (if ofInitiator then .finI else .finR)

/-- The content of HELLO. -/
def helloContent (nonce : Nat) (devid : BitVec 384) (version : BitVec 16) : List Byte :=
  leBytes 32 nonce ++ hashBytes devid ++ beBytes 2 version.toNat

/-- Step 1: a handshake starts; `inside` says that it runs inside the session. -/
def startHandshake (s : State) (n : Nat) (inside : Bool) : State :=
  match sessOf s n with
  | none => s
  | some (a, b) =>
    let (s, nonce) := draw s 256
    let hs := (match b with
      | some b => b.hs
      | none => a.hs) + 1
    let h : Session := { phase := 1, hs := hs, started := s.time.now, backoff := a.backoff }
    let s := if inside then putSess s n a (some h) else putSess s n h none
    sendStep s n h 0x01 (helloContent nonce (devidHash s) 0x0001)

/-- The link of a port goes down after a failed attempt; an established session's port goes down as R73 says. -/
def dropLink (s : State) (n : Nat) : State :=
  match sessOf s n with
  | none => s
  | some (a, b) =>
    let hs : BitVec 16 := match b with
      | some b => b.hs
      | none => a.hs
    let back : Session := {
      hs := hs, backoff := min 10000 (2 * a.backoff), retryAt := some (s.time.now + a.backoff * 1000000) }
    let s := if a.phase = 6 then portDown s n
      else if n < 128 then updFab s n fun q => { q with up := false }
      else updBrg s (n - 128) fun q => { q with up := false, unacked := [], txSeq := 0, rxSeq := 0 }
    putSess s n back none

/-- A check fails, or the bound of step 6 passes: ABORT, the fault record, and the wait (R377). -/
def failHandshake (s : State) (n cause : Nat) : State :=
  match shaking s n with
  | none => s
  | some h =>
    let s := sendSession s n 0x07 h.hs.toNat (beBytes 1 cause)
    pump (dropLink (securityFault s n) n)

/-! ### Established sessions -/

/-- Splits the 704 bits of traffic keys: K_ir, K_ri, IV_ir, IV_ri. -/
def splitKeys (h : Session) (k : BitVec 704) : Session :=
  let kir := k.extractLsb' 0 256
  let kri := k.extractLsb' 256 256
  let ivir := k.extractLsb' 512 96
  let ivri := k.extractLsb' 608 96
  if h.initiator then { h with kTx := kir, kRx := kri, ivTx := ivir, ivRx := ivri }
  else { h with kTx := kri, kRx := kir, ivTx := ivri, ivRx := ivir }

/-- What remains of a handshake that has reached step 6: the two ephemeral keys and ss are gone. -/
def sealSession (n : Nat) (h : Session) : Session :=
  let k : BitVec 704 := kmac 704 h.ss.toNat (thOf h 6) (if n < 128 then .link else .macsec)
  let h := splitKeys h k
  { phase := 6, hs := h.hs, initiator := h.initiator, peerDevid := h.peerDevid, kTx := h.kTx, kRx := h.kRx
    ivTx := h.ivTx, ivRx := h.ivRx }

/-- The content of TWIN_KEY: g_p, ek_s, and the ciphertext for the twin, zero until its ek_s is known. -/
def twinKeyContent (s : State) : List Byte :=
  let ct : BitVec 12544 := match s.keys.peerEk with
    | some ek => Config.kemCt ek (pairMessage s)
    | none => 0
  beBytes 4 (pairGen s).toNat ++ leBytes 1568 (storeEk s).toNat ++ leBytes 1568 ct.toNat

/-- Whether a port is on a path to the twin. -/
def twinPort (s : State) (n : Nat) : Bool :=
  twinPresent s && (match pathSetOf s 0 0 (.home (twinId s)) with
    | some p => p.ports.contains n
    | none => false)

/-- Sends TWIN_KEY on a port toward the twin (R380). -/
def sendTwinKey (s : State) (n : Nat) : State :=
  match sessOf s n with
  | some (a, _) => if twinPort s n && a.phase == 6 then sendSession s n 0x09 a.hs.toNat (twinKeyContent s) else s
  | none => s

/-- The next key of a direction (R379). -/
def nextKey (k : BitVec 256) : BitVec 256 := kmac 256 k.toNat [] .linkUpd

/-- The next SAK of a bridge port (Table 17-8). -/
def nextSak (k : BitVec 256) : BitVec 256 := kmac 256 k.toNat [] .macsecUpd

/-- Announces a new sending key from the next data flit or frame on (R379, R409). -/
def announceKey (s : State) (n : Nat) (gen : BitVec 32) : State :=
  if n < 128 then (match fabPort s n with
    | some q => sendCtl s n 0x10 (sessionFlit 0x08 q.sess.hs.toNat 0 1 (beBytes 2 q.txSeq.toNat ++ beBytes 4 gen.toNat))
    | none => s)
  else (match brgPort s (n - 128) with
    | some q => sendControl s (n - 128) (sessionFlit 0x08 q.sess.hs.toNat 0 1 (beBytes 4 (q.txSeq + 1).toNat ++ beBytes 4 gen.toNat))
    | none => s)

/-- The sending side of a bridge port takes a SAK under the next association number. -/
def useSak (s : State) (k : Nat) (sak : BitVec 256) (salt : BitVec 96) : State :=
  updBrg s k fun q => { q with sak := sak, salt := salt, an := q.an + 1, pn := 0 }

/-- The session of a port is established (step 6): keys in use, the agent attached, routes over the port again. -/
def establish (s : State) (n : Nat) (h : Session) (agent : AgentId) (tSnp : Nat) : State :=
  let s := putSess s n (sealSession n h) none
  let s := if n < 128 then updFab s n fun q => { q with sessAt := s.time.now }
    else updBrg s (n - 128) fun q => { q with
      sessAt := s.time.now, lastAccept := s.time.now, lastSent := s.time.now, lastAckAt := s.time.now
      sak := (sealSession n h).kTx, salt := (sealSession n h).ivTx, an := 0, pn := 0 }
  let s := if agentPort s n then { s with fab := { s.fab with
      attach := s.fab.attach.filter (fun a => a.agent != agent && a.port != n) ++ [{ agent := agent, port := n, tSnp := min 2000 tSnp }] } }
    else s
  routeUnrouted (refreshGroups (noteRoutes (sendTwinKey s n)))

/-- A handshake inside a session is done: the new sending key holds from the next flit on, the new receiving key from the
peer's next KEY_UPDATE on (R379). -/
def renew (s : State) (n : Nat) (a h : Session) : State :=
  let new := sealSession n h
  let gen := a.txGen + 1
  let s := announceKey s n gen
  let s := putSess s n { a with kTx := new.kTx, ivTx := new.ivTx, txCount := 0, txGen := gen } (some new)
  let s := if n < 128 then updFab s n fun q => { q with sessAt := s.time.now }
    else useSak (updBrg s (n - 128) fun q => { q with sessAt := s.time.now }) (n - 128) new.kTx new.ivTx
  sendTwinKey s n

/-! ### LINK_UP -/

/-- The record of a port exists from its first training on. -/
def ensurePort (s : State) (n : Nat) : State :=
  if n < 128 then (if (fabPort s n).isSome then s else { s with fab := { s.fab with ports := s.fab.ports ++ [{ id := n }] } })
  else if n < 144 then
    (if (brgPort s (n - 128)).isSome then s else { s with fab := { s.fab with brg := s.fab.brg ++ [{ id := n - 128 }] } })
  else (if (flexPort s (n - 144)).isSome then s else { s with fab := { s.fab with flex := s.fab.flex ++ [{ id := n - 144 }] } })

/-- A wait of R377 is over, or there is none. -/
def mayTry (t : Option Nat) (now : Nat) : Bool :=
  match t with
  | some t => decide (t ≤ now)
  | none => true

/-- Credits given at link-up: what each channel has of its own (R56, R77). -/
def firstCredits (s : State) (n : Nat) : List Nat := (List.range 8).map (baseSlots s n)

/-- The lanes of a fabric or bridge port have trained: initial credits and HELLO go out. -/
def linkStart (s : State) (n lanes : Nat) : State :=
  match sessOf s n with
  | none => s
  | some (a, _) =>
    if trained s n || !mayTry a.retryAt s.time.now then s
    else if n < 128 then
      let s := updFab s n fun q => { q with
        up := true, lanes := lanes, txSeq := 0, rxSeq := 0, credits := List.replicate 8 0, owed := List.replicate 8 0 }
      let s := updFab s n fun q => { q with given := firstCredits s n }
      startHandshake (sendCtl s n 0x00 ((firstCredits s n).flatMap (beBytes 2))) n false
    else
      let s := updBrg s (n - 128) fun q => { q with
        up := true, lanes := lanes, txSeq := 0, rxSeq := 0, credits := List.replicate 8 0
        lastAccept := s.time.now, lastSent := s.time.now, lastAckAt := s.time.now }
      let s := updBrg s (n - 128) fun q => { q with given := firstCredits s n, owed := firstCredits s n }
      startHandshake s n false

/-- A flex link has trained: a device-role port is an agent with its declared snoop time (R403). -/
def flexStart (s : State) (k lanes : Nat) : State :=
  match flexPort s k with
  | none => s
  | some q =>
    if q.up || !mayTry q.retryAt s.time.now then s
    else
      let s := updFlex s k fun q => { q with
        up := true, lanes := lanes, linkUpAt := s.time.now, secured := false, keys := [], ideActive := false, retryAt := none }
      if flexDevice s k then { s with fab := { s.fab with
          attach := s.fab.attach.filter (fun a => a.agent != flexAgent s k && a.port != 144 + k)
            ++ [{ agent := flexAgent s k, port := 144 + k, tSnp := flexSnp s k }] } }
      else s

/-- LINK_UP (R50, R56, R376): a port trains on lanes in service, at most as many as are left to it. -/
def execLinkUp (port lanes : Nat) (s : State) : Host.Outcome State Fault Refusal :=
  .next (if !isRunning s then s
    else if port < 128 then
      if fabEn s port && decide (2 ≤ fabTrainable s port) && decide (2 ≤ lanes) then
        linkStart (ensurePort s port) port (min lanes (fabTrainable s port))
      else s
    else if port < 144 then
      if brgEn s (port - 128) && decide (0 < brgTrainable s (port - 128)) && decide (0 < lanes) then
        linkStart (ensurePort s port) port (min lanes (brgTrainable s (port - 128)))
      else s
    else if port < 160 then
      if flexEn s (port - 144) && decide (0 < flexTrainable s (port - 144)) && decide (0 < lanes) then
        flexStart (ensurePort s port) (port - 144) (min lanes (flexTrainable s (port - 144)))
      else s
    else s)

/-! ### Handshake messages (Table 16-4) -/

/-- A handshake of the port under way, in a state, receives a message. -/
def withShaking (s : State) (n phase : Nat) (f : State → Session → State) : State :=
  match shaking s n with
  | none => s
  | some h => if isRunning s && trained s n && h.phase == phase then f s h else s

/-- HELLO (R376): the end whose DevID hash is lower, as a big-endian integer, is the initiator; CERTS goes out. -/
def execHello (port : Nat) (nonce : BitVec 256) (devid : BitVec 384) (version : BitVec 16) (s : State) :
    Host.Outcome State Fault Refusal :=
  .next (withShaking s port 1 fun s h =>
    if hasMsg h 0x01 false then s
    else if version ≠ 0x0001 then failHandshake s port 5
    else
      let lower := decide (leVal (hashBytes (devidHash s)).reverse < leVal (hashBytes devid).reverse)
      let h := { h with initiator := lower, peerDevid := devid
                        transcript := h.transcript ++ [(0x01, false, helloContent nonce.toNat devid version)] }
      sendStep s port h 0x02 (Config.certChain (devidSeed s) s.boot.measure.aliasSeed s.boot.measure.m2 s.boot.measure.svn))

/-- CERTS (R377): the chain's root is an anchor and every signature verifies; the initiator goes on with KEY_SHARE. -/
def execCerts (port : Nat) (chain : ChainSeen) (s : State) : Host.Outcome State Fault Refusal :=
  .next (withShaking s port 1 fun s h =>
    if !hasMsg h 0x01 false then s
    else if !((List.range 16).any (fun k => anchor s k == chain.root) && chain.signaturesOk) then failHandshake s port 1
    else
      let h := { h with phase := 2, transcript := h.transcript ++ [(0x02, false, chain.bytes)] }
      if h.initiator then
        let (s, d) := draw s 512
        let h := { h with dk := BitVec.ofNat 512 d }
        sendStep s port h 0x03 (leBytes 1568 (Config.kemEk h.dk).toNat)
      else putShaking s port h)

/-- Step 5: K_hs, and this end's VERIFY. -/
def stepVerify (s : State) (n : Nat) (h : Session) : State :=
  let h := { h with phase := 4, kHs := kmac 256 h.ss.toNat (thOf h 4) .linkHs }
  sendStep s n h 0x05 (leBytes 3309 (aliasSign s (thOf h 4)).toNat)

/-- KEY_SHARE (R376): the responder encapsulates and answers KEY_ENCAP. -/
def execKeyShare (port : Nat) (ek : BitVec 12544) (s : State) : Host.Outcome State Fault Refusal :=
  .next (withShaking s port 2 fun s h =>
    if h.initiator then s
    else
      let (s, m) := draw s 256
      let m := BitVec.ofNat 256 m
      let h := { h with ss := Config.kemSs ek m, transcript := h.transcript ++ [(0x03, false, leBytes 1568 ek.toNat)] }
      let ct := leBytes 1568 (Config.kemCt ek m).toNat
      let s := sendStep s port h 0x04 ct
      stepVerify s port { h with transcript := h.transcript ++ [(0x04, true, ct)] })

/-- KEY_ENCAP (R376): the initiator decapsulates. -/
def execKeyEncap (port : Nat) (ct : BitVec 12544) (s : State) : Host.Outcome State Fault Refusal :=
  .next (withShaking s port 2 fun s h =>
    if !h.initiator then s
    else
      stepVerify s port { h with
        ss := Config.kemDecaps h.dk ct, transcript := h.transcript ++ [(0x04, false, leBytes 1568 ct.toNat)] })

/-- VERIFY (R376): the peer's signature over TH by its chain's leaf key; FINISHED goes out. -/
def execVerify (port : Nat) (signature : List Byte) (signatureOk : Bool) (s : State) : Host.Outcome State Fault Refusal :=
  .next (withShaking s port 4 fun s h =>
    if !signatureOk then failHandshake s port 2
    else
      let h := { h with phase := 5, transcript := h.transcript ++ [(0x05, false, signature)] }
      sendStep s port h 0x06 (leBytes 32 (finishedMac h h.initiator).toNat))

/-- FINISHED (R376): checked; the session is established, or the one it renews takes the new keys. -/
def execFinished (port : Nat) (mac : BitVec 256) (agent : AgentId) (tSnp : Nat) (s : State) : Host.Outcome State Fault Refusal :=
  .next (withShaking s port 5 fun s h =>
    if mac ≠ finishedMac h (!h.initiator) then failHandshake s port 3
    else
      let h := { h with transcript := h.transcript ++ [(0x06, false, leBytes 32 mac.toNat)] }
      match sessOf s port with
      | some (a, some _) => renew s port a h
      | _ => establish s port h agent tSnp)

/-- ABORT (R377): the peer ended the attempt; the port stays down and tries again. -/
def execAbort (port _cause : Nat) (s : State) : Host.Outcome State Fault Refusal :=
  .next (match shaking s port with
    | some _ => if isRunning s && trained s port then pump (dropLink s port) else s
    | none => s)

/-- SESSION_TIMEOUT (R377): step 6 was not reached within 2 ms. -/
def execSessionTimeout (port : Nat) (s : State) : Host.Outcome State Fault Refusal :=
  .next (match shaking s port with
    | some h => if isRunning s && decide (h.started + 2000000 ≤ s.time.now) then failHandshake s port 4 else s
    | none => s)

/-- A flex port's wait is over (R404). -/
def flexTryAgain (s : State) (k : Nat) : State :=
  match flexPort s k with
  | some q =>
    let lanes := min q.lanes (flexTrainable s k)
    if isRunning s && q.retryAt.isSome && flexEn s k && decide (0 < lanes) then flexStart s k lanes else s
  | none => s

/-- SESSION_RETRY (R377, R404): the wait is over and the port tries again, on the lanes it had if they are still in service. -/
def execSessionRetry (port : Nat) (s : State) : Host.Outcome State Fault Refusal :=
  .next (if 144 ≤ port then flexTryAgain s (port - 144) else match sessOf s port with
    | some (a, _) =>
      let lanes := if port < 128 then (match fabPort s port with
          | some q => if fabEn s port then min q.lanes (fabTrainable s port) else 0
          | none => 0)
        else (match brgPort s (port - 128) with
          | some q => if brgEn s (port - 128) then min q.lanes (brgTrainable s (port - 128)) else 0
          | none => 0)
      if isRunning s && a.retryAt.isSome && decide (0 < lanes) then linkStart s port lanes else s
    | none => s)

/-! ### Key updates -/

/-- KEY_UPDATE (R379): the first flit or frame under the sender's new key. -/
def execKeyUpdate (port : Nat) (seq : BitVec 12) (generation : BitVec 32) (s : State) : Host.Outcome State Fault Refusal :=
  .next (match sessOf s port with
    | some (a, b) =>
      if isRunning s && trained s port && a.phase == 6 && generation == a.rxGen + 1 then
        let next := if port < 128 then nextKey a.kRx else nextSak a.kRx
        let (k, iv, b) : BitVec 256 × BitVec 96 × Option Session := match b with
          | some h => if h.phase = 6 then (h.kRx, h.ivRx, none) else (next, a.ivRx, some h)
          | none => (next, a.ivRx, none)
        putSess s port { a with kRxOld := a.kRx, kRx := k, ivRx := iv, rxGen := generation, rxSwitch := some seq } b
      else s
    | none => s)

/-- KEY_UPDATE_COUNT (R379): the key is updated after 2^32 flits; the IV is kept and the count restarts. -/
def execKeyUpdateCount (port : Nat) (s : State) : Host.Outcome State Fault Refusal :=
  .next (match fabPort s port with
    | some q =>
      if isRunning s && q.up && q.sess.phase == 6 && decide (q.sess.txCount ≥ 2 ^ 32) then
        let s := announceKey s port (q.sess.txGen + 1)
        updFab s port fun q => { q with sess := { q.sess with
          kTx := nextKey q.sess.kTx, txCount := 0, txGen := q.sess.txGen + 1 } }
      else s
    | none => s)

/-- REHANDSHAKE_24H (R379). -/
def execRehandshake24h (port : Nat) (s : State) : Host.Outcome State Fault Refusal :=
  .next (match sessOf s port with
    | some (a, none) =>
      let at_ := if port < 128 then (match fabPort s port with
          | some q => q.sessAt
          | none => 0)
        else (match brgPort s (port - 128) with
          | some q => q.sessAt
          | none => 0)
      if isRunning s && trained s port && a.phase == 6 && decide (at_ + 86400000000000 ≤ s.time.now) then startHandshake s port true
      else s
    | _ => s)

/-- MACSEC_REKEY (R409): after 2^40 frames the SAK is replaced and the association number advances. -/
def execMacsecRekey (port : Nat) (s : State) : Host.Outcome State Fault Refusal :=
  .next (match brgPort s (port - 128) with
    | some q =>
      if isRunning s && decide (128 ≤ port) && q.up && q.sess.phase == 6 && decide (q.pn ≥ 2 ^ 40) then
        let gen := q.sess.txGen + 1
        let s := announceKey s port gen
        let s := useSak s (port - 128) (nextSak q.sak) q.salt
        updBrg s (port - 128) fun q => { q with sess := { q.sess with kTx := q.sak, txGen := gen } }
      else s
    | none => s)

/-! ### TWIN_KEY (R373, R380) -/

/-- TWIN_KEY: a ciphertext under another g_p is discarded with a security fault; the first valid one of a g_p is kept. -/
def execTwinKey (port : Nat) (gp : BitVec 32) (ekS ct : BitVec 12544) (s : State) : Host.Outcome State Fault Refusal :=
  .next (match sessOf s port with
    | some (a, _) =>
      if !(isRunning s && trained s port && a.phase == 6 && twinPort s port) then s
      else if gp ≠ pairGen s then securityFault s port
      else
        let fresh := s.keys.peerEk.isNone
        let s := { s with keys := { s.keys with peerEk := some (s.keys.peerEk.getD ekS) } }
        let kept : Bool := match s.keys.peer with
          | some p => p.1 == gp
          | none => false
        let s := if ct = 0 ∨ kept = true then s
          else
            let s := { s with keys := { s.keys with peer := some (gp, ekS, ct) } }
            pump (writeKeyRecord (refreshPair s))
        if fresh || (ct == 0 && !kept) then sendTwinKey s port else s
    | none => s)

end Sys2Proof.Machine
end

