-- ==== Sys2Proof/Machine/Bridge.lean ====
section
/-!
DEFINITION. Machine/Bridge.lean: BFP/IP frames of the bridge ports (R406, R407, R409): what is accepted, acknowledged, sent
and sent again. Bridge port k is port 128 + k of a command.
-/

namespace Sys2Proof.Machine

/-! ### Frames received -/

/-- `a` comes before `b` among frame numbers. -/
def frameBefore (a b : BitVec 32) : Bool := a != b && decide ((b - a).toNat < 2 ^ 31)

/-- The acknowledgement and the credit return of a shim; the round trip is measured on a frame that was sent once. -/
def takeShim (s : State) (k : Nat) (f : BridgeFrame) : State :=
  updBrg s k fun q =>
    let done := q.unacked.filter (fun x => frameBefore x.seq f.ack)
    let rtt := match done.getLast? with
      | some x => if x.resends = 0 then s.time.now - x.sentAt else q.rtt
      | none => q.rtt
    { q with
      unacked := q.unacked.filter (fun x => !frameBefore x.seq f.ack)
      lastAckAt := if done.isEmpty then q.lastAckAt else s.time.now
      rtt := rtt
      credits := addAt q.credits f.creditVc.toNat f.creditSlots.toNat }

/-- An acknowledgement frees the space of the frames it covers (R407). -/
def takeAck (s : State) (k : Nat) (f : BridgeFrame) : State :=
  let done := match brgPort s k with
    | some q => (q.unacked.filter (fun x => frameBefore x.seq f.ack)).flatMap (fun x => x.packets)
    | none => []
  freeAll (takeShim s k f) done

/-- A frame that fails validation is discarded and counted; sixteen within 1 ms take the port down (R409). -/
def frameInvalid (s : State) (k : Nat) : State :=
  let s := updBrg s k fun q => { q with
    valFails := q.valFails + 1
    failWin := if s.time.now ≥ q.failWin.1 + 1000000 then (s.time.now, 1) else (q.failWin.1, q.failWin.2 + 1) }
  match brgPort s k with
  | some q => if q.failWin.2 ≥ 16 then pump (portDown (securityFault s (128 + k)) (128 + k)) else s
  | none => s

/-- A packet of an accepted frame: an outer CE is ORed into it (R72); one with a bad header is discarded and counted (R59). -/
def framePacket (k : Nat) (ce : Bool) (s : State) (p : Packet) : State :=
  if headerOk p then ingress s (128 + k) { p with ce := p.ce || ce }
  else updBrg s k fun q => { q with malformed := q.malformed + 1, owed := addAt q.owed p.vc.toNat (pktSlots p) }

/-- Runs `f` on a bridge port whose link is trained and that a frame reaches. -/
def withBridge (s : State) (port : Nat) (f : State → Nat → BrgPort → State) : State :=
  if 128 ≤ port then (match brgPort s (port - 128) with
    | some q => if isRunning s && q.up then f s (port - 128) q else s
    | none => s)
  else s

/-- A numbered frame: accepted only if it validates and carries the next sequence expected (R407). -/
def numberedFrame (s : State) (k : Nat) (q : BrgPort) (f : BridgeFrame) : State :=
  if !f.valid then frameInvalid s k
  else if f.seq ≠ q.rxSeq then s
  else
    let s := takeAck s k f
    let s := updBrg s k fun q => { q with
      rxSeq := q.rxSeq + 1, lastAccept := s.time.now, ackOwed := some (q.ackOwed.getD s.time.now) }
    f.packets.foldl (framePacket k f.outerCe) s

/-- A kind-1 or kind-3 frame: its acknowledgement and credits count once it validates. -/
def plainFrame (s : State) (k : Nat) (f : BridgeFrame) : State :=
  if !f.valid then frameInvalid s k else updBrg (takeAck s k f) k fun q => { q with lastAccept := s.time.now }

/-- BRIDGE_DATA_FRAME (R407). -/
def execBridgeDataFrame (port : Nat) (f : BridgeFrame) (s : State) : Host.Outcome State Fault Refusal :=
  .next (withBridge s port fun s k q => if q.sess.phase = 6 then numberedFrame s k q f else s)

/-- BRIDGE_CONTROL_FRAME (R406): the session message in it is a command of its own. -/
def execBridgeControlFrame (port : Nat) (f : BridgeFrame) (s : State) : Host.Outcome State Fault Refusal :=
  .next (withBridge s port fun s k q => numberedFrame s k q { f with packets := [] })

/-- BRIDGE_ACK_FRAME (R407). -/
def execBridgeAckFrame (port : Nat) (f : BridgeFrame) (s : State) : Host.Outcome State Fault Refusal :=
  .next (withBridge s port fun s k _ => plainFrame s k f)

/-- BRIDGE_KEEPALIVE (R407). -/
def execBridgeKeepalive (port : Nat) (f : BridgeFrame) (s : State) : Host.Outcome State Fault Refusal :=
  .next (withBridge s port fun s k q => if q.sess.phase = 6 then plainFrame s k f else s)

/-! ### Frames sent -/

/-- Sends a frame without a number of its own: kind 1 or 3. -/
def sendPlain (s : State) (k kind : Nat) (q : BrgPort) : State :=
  let (a, _) := creditReturn s (128 + k) q.owed
  let s := updBrg s k fun q => { q with owed := subAt q.owed a.1 a.2, ackOwed := none, lastSent := s.time.now, pn := q.pn + 1 }
  noteReturn (say s (.bridge k kind 0 q.rxSeq a [] [] false)) (128 + k) a (0, 0)

/-- BRIDGE_ACK_TICK (R407): 2 us after an acceptance without a frame to carry its acknowledgement. -/
def execBridgeAckTick (port : Nat) (s : State) : Host.Outcome State Fault Refusal :=
  .next (withBridge s port fun s k q => match q.ackOwed with
    | some t => if t + 2000 ≤ s.time.now then sendPlain s k 1 q else s
    | none => s)

/-- BRIDGE_KEEPALIVE_TICK (R407): after 100 us without traffic. -/
def execBridgeKeepaliveTick (port : Nat) (s : State) : Host.Outcome State Fault Refusal :=
  .next (withBridge s port fun s k q =>
    if q.sess.phase = 6 ∧ q.lastSent + 100000 ≤ s.time.now then sendPlain s k 3 q else s)

/-- The timeout of the sender (R407). -/
def rto (q : BrgPort) : Nat := max 20000 (4 * q.rtt)

/-- Sends one frame again, under a new packet number. -/
def resendFrame (k : Nat) (s : State) (x : BrgFrame) : State :=
  match brgPort s k with
  | none => s
  | some q =>
    let s := updBrg s k fun q => { q with
      resent := q.resent + 1, pn := q.pn + 1, lastSent := s.time.now, ackOwed := none
      unacked := mapIf (fun (y : BrgFrame) => y.seq == x.seq) (fun y => { y with resends := y.resends + 1 }) q.unacked }
    say s (.bridge k (if x.control then 2 else 0) x.seq q.rxSeq (0, 0) (x.packets.map (fun p => p.pkt)) x.content (x.packets.any (fun p => p.marked)))

/-- BRIDGE_RTO (R407): everything from the oldest unacknowledged frame on is sent again; a frame that was sent again 8 times
already takes the port down. -/
def execBridgeRto (port : Nat) (s : State) : Host.Outcome State Fault Refusal :=
  .next (withBridge s port fun s k q => match q.unacked with
    | [] => s
    | x :: _ =>
      if max q.lastAckAt x.sentAt + rto q > s.time.now then s
      else if q.unacked.any (fun y => decide (y.resends ≥ 8)) then pump (portDown s port)
      else updBrg (q.unacked.foldl (resendFrame k) s) k fun q => { q with lastAckAt := s.time.now })

/-- BRIDGE_SILENCE (R407): nothing accepted for T_dead. -/
def execBridgeSilence (port : Nat) (s : State) : Host.Outcome State Fault Refusal :=
  .next (withBridge s port fun s _ q => if q.lastAccept + tDead s ≤ s.time.now then pump (portDown s port) else s)

/-- The packets of the next data frame: in the order of the egress, with credits for all of them, up to 8,256 B. -/
def framePick : Nat → List Queued → List Nat → Nat → List Queued
  | 0, _, _, _ => []
  | n + 1, queue, credits, space =>
    match nextOf queue credits with
    | none => []
    | some x =>
      if 16 * pktSlots x.pkt > space then []
      else x :: framePick n (queue.erase x) (subAt credits x.pkt.vc.toNat (pktSlots x.pkt)) (space - 16 * pktSlots x.pkt)

/-- One data frame of a bridge port, if it has packets to send; without any, credits that amount to a largest packet go in a frame
of kind 1. -/
def bridgeOne (s : State) (k : Nat) : State :=
  match brgPort s k with
  | none => s
  | some q =>
    let ps := if q.up && q.sess.phase == 6 then framePick 258 q.queue q.credits 8256 else []
    if ps.isEmpty then
      (if q.up && q.sess.phase == 6 && decide (258 ≤ (creditReturn s (128 + k) q.owed).1.2) then sendPlain s k 1 q else s)
    else
      let (a, _) := creditReturn s (128 + k) q.owed
      let s := updBrg s k fun q => { q with
        queue := ps.foldl (fun l p => l.erase p) q.queue
        credits := ps.foldl (fun l x => subAt l x.pkt.vc.toNat (pktSlots x.pkt)) q.credits
        owed := subAt q.owed a.1 a.2
        unacked := q.unacked ++ [{ seq := q.txSeq, packets := ps, control := false, sentAt := s.time.now }]
        txSeq := q.txSeq + 1, pn := q.pn + 1, lastSent := s.time.now, ackOwed := none }
      noteReturn (say s (.bridge k 0 q.txSeq q.rxSeq a (ps.map (fun x => x.pkt)) [] (ps.any (fun x => x.marked)))) (128 + k) a (0, 0)

/-- What the bridge ports send in one tick. -/
def bridgeAll (s : State) : State := (s.fab.brg.map (fun q => q.id)).foldl bridgeOne s

end Sys2Proof.Machine
end

