-- ==== Sys2Proof/Machine/Builtin.lean ====
section
/-!
DEFINITION. Machine/Builtin.lean: the built-in stages (Table 10-11, R273, R292, R315), the closing of stages and the end of
a run (R224, R238).
-/

namespace Sys2Proof.Machine

/-! ### What a built-in stage makes of a record -/

/-- Outputs of a built-in stage: (poison, bytes), and the worst status of its accesses. -/
structure Made where
  outs : List (Bool × List Byte) := []
  status : Stat := 0
  deriving DecidableEq, Repr

/-- The status of a read that only answers not there yet may hold up. -/
def onlyLack (st : Stat) : Stat := if isLack st then st else 0x00

/-- The table set of a coding stage. -/
def stageTables (s : State) (e : Nat) (g : Stage) : Got := ownRead s e (g.prm.getD 0 0) 8448

/-- rANS decode: FP32 elements, 1,024 a record (R273). -/
def madeDecode (s : State) (e : Nat) (g : Stage) (poison : Bool) (data : List Byte) : Made :=
  let tab := stageTables s e g
  match decodeChunk tab.bytes (g.prm.getD 1 0).toNat 65535 data with
  | none => { outs := [(true, [])], status := onlyLack tab.status }
  | some l =>
    let b := l.flatMap fun x => leBytes 4 (encodeNum 0 x).1
    { outs := (List.range ((b.length + 4095) / 4096)).map fun i => (poison, (b.drop (4096 * i)).take 4096)
      status := onlyLack tab.status }

/-- rANS encode of FP32 elements (R272, R273). -/
def madeEncode (s : State) (e : Nat) (g : Stage) (poison : Bool) (data : List Byte) : Made :=
  let tab := stageTables s e g
  let l := (List.range (data.length / 4)).map fun i => decodeNum 0 (leAt data (4 * i) 4)
  { outs := [(poison, encodeChunk tab.bytes (g.prm.getD 1 0).toNat (g.prm.getD 2 0).toNat l)], status := onlyLack tab.status }

/-- One element of the gather stage, none where it is sent as 0xFF; and what it lacks. -/
def gatherElement (s : State) (e : Nat) (base : Word) (sz limit idx : Nat) : Option (List Byte) × Stat :=
  if limit ≠ 0 ∧ idx ≥ limit then (none, 0x00)
  else
    let got := ownRead s e (base + BitVec.ofNat 64 (idx * sz)) sz
    if got.status = 0x00 then (some got.bytes, 0x00) else (none, onlyLack got.status)

/-- Gather stage (R292). -/
def madeGather (s : State) (e : Nat) (g : Stage) (poison : Bool) (data : List Byte) : Made :=
  let sz0 := (g.prm.getD 1 0).toNat
  let sz := if 1 ≤ sz0 ∧ sz0 ≤ 4096 then sz0 else 4
  let els := (List.range (data.length / 4)).map fun i =>
    gatherElement s e (g.prm.getD 0 0) sz (g.prm.getD 2 0).toNat (leAt data (4 * i) 4)
  { outs := [(poison || els.any (fun x => x.1.isNone), (els.flatMap fun x => x.1.getD (List.replicate sz 0xFF)).take 4096)]
    status := (els.map (fun x => x.2)).foldl worse 0x00 }

/-- One pair of the scatter stage. -/
def scatterPair (e : Nat) (room : RoomId) (base : Word) (sz limit : Nat) (p : State × Stat) (pair : List Byte) : State × Stat :=
  let idx := leAt pair 0 4
  if limit ≠ 0 ∧ idx ≥ limit then p
  else
    let a := (base + BitVec.ofNat 64 (idx * sz)).toNat
    let (s, w) := ownWrite p.1 e room (BitVec.ofNat 64 (a - a % sz)) (pair.drop 4)
    (s, worse p.2 w)

/-- Scatter stage (R292): no outputs. -/
def madeScatter (s : State) (e : Nat) (room : RoomId) (g : Stage) (poison : Bool) (data : List Byte) : State × Made :=
  if poison then (s, { status := 0x01 })
  else
    let sz0 := (g.prm.getD 1 0).toNat
    let sz := if [4, 8, 16, 32, 64].contains sz0 then sz0 else 64
    let pairs := (List.range (data.length / (4 + sz))).map fun i => (data.drop ((4 + sz) * i)).take (4 + sz)
    let (s, w) := pairs.foldl (scatterPair e room (g.prm.getD 0 0) sz (g.prm.getD 2 0).toNat) (s, 0x00)
    (s, { status := w })

/-- One key of the lookup stage. -/
def lookupKey (room : RoomId) (array : Nat) (p : State × List Byte) (key : List Byte) : State × List Byte :=
  let (s, b, _, _) := arrayLookup p.1 room array (BitVec.ofNat 256 (leVal key))
  (s, p.2 ++ b)

/-- Lookup stage (R315). -/
def madeLookup (s : State) (room : RoomId) (g : Stage) (poison : Bool) (data : List Byte) : State × Made :=
  let a0 := (g.prm.getD 0 0).toNat
  let keys := (List.range (data.length / 32)).map fun i => (data.drop (32 * i)).take 32
  if poison then (s, { outs := [(true, keys.flatMap fun _ => resultBytes none 0)] })
  else
    let (s, b) := keys.foldl (lookupKey room (if a0 < 8 then a0 else 0)) (s, [])
    (s, { outs := [(false, b)] })

/-- Match stage (R315): record mode, the record's boundaries as a range's. -/
def madeMatch (s : State) (room : RoomId) (g : Stage) (n : BitVec 32) (poison : Bool) (data : List Byte) : Made :=
  match s.filt.automata.find? (fun a => a.id == (g.prm.getD 0 0).toNat && a.room == room) with
  | none => { outs := [(true, [])], status := 0x03 }
  | some a =>
    let best := (g.prm.getD 1 0).toNat == 1
    let d0 := (g.prm.getD 2 0).toNat
    let ms := sortMatches (scanRange a true best (min d0 0x100) 0 data)
    let b := ms.flatMap fun m => matchBytes (n.toNat * 65536 + m.off) m.pattern (if best then 4 else 0) m.prio
    { outs := (List.range ((b.length + 4095) / 4096)).map fun i => (poison, (b.drop (4096 * i)).take 4096) }

/-- What a built-in stage makes of an input-0 record. -/
def makeRecord (s : State) (e : Nat) (room : RoomId) (g : Stage) (kind : Nat) (n : BitVec 32) (poison : Bool) (data : List Byte) :
    State × Made :=
  match kind with
  | 1 => (s, { outs := [(poison, data)] })
  | 2 => (s, madeDecode s e g poison data)
  | 3 => (s, madeEncode s e g poison data)
  | 4 => (s, madeGather s e g poison data)
  | 5 => madeScatter s e room g poison data
  | 6 => madeLookup s room g poison data
  | _ => (s, madeMatch s room g n poison data)

/-! ### Stages and runs -/

/-- Adds to the worst status of a run. -/
def runStatus (s : State) (id : Nat) (st : Stat) : State :=
  updCaravan s id fun v => { v with run := v.run.map fun r => { r with status := BitVec.ofNat 8 (worse r.status.toNat st) } }

/-- A built-in stage takes the first record of a cluster's input 0, if it may be delivered and its outputs have space; where it
lacks answers it asks for them with the cluster's engine, and takes the record once they are there. -/
def stepBuiltin : Nat → State → Nat → Nat → Nat → Nat → State
  | 0, s, _, _, _, _ => s
  | f + 1, s, id, i, kind, cluster =>
    match caravanOf s id with
    | none => s
    | some v => match v.run, v.stages[i]?, queueOf v i 0 cluster none with
      | some run, some g, r :: _ =>
        if !deliverable s v i 0 r || !outHasRoom v i 0 r.n then s
        else
          let data := readBytes s.engine.stores ((cluster * 33 + 32) * 2 ^ 22 + handleAddr r.handle) (handleLen r.handle)
          let (t, m) := makeRecord s run.e v.room g kind r.n (handlePoison r.handle) data
          if isLack m.status then
            let cls := match ledgerEntry s run.e with
              | some en => workCls en
              | none => 0
            let l := lackLines m.status
            let u := askLines s (.work run.e) cluster 0 v.room cls l
            if l.all (fun x => (gotLine u (.work run.e) x).isSome) then stepBuiltin f u id i kind cluster else u
          else
            let s := updCaravan (dropGot t (.work run.e)) id fun v => popRec v i 0 cluster none
            let s := releaseBuf s cluster (handleAddr r.handle)
            let s := m.outs.zipIdx.foldl (fun s x => sendRecord s id i 0 r.n x.2 x.1.1 x.1.2) s
            runStatus (dropInput s id i cluster r.n r.k) id m.status
      | _, _, _ => s

/-- A built-in stage works on its clusters' queues, `k` records of each at most. -/
def runBuiltin (id i kind : Nat) : Nat → State → List Nat → State
  | 0, s, _ => s
  | k + 1, s, cs => runBuiltin id i kind k (cs.foldl (fun s c => stepBuiltin 1048576 s id i kind c) s) cs

/-- Records that wait on input 0 of a stage. -/
def waitingAt (v : Caravan) (i : Nat) : Nat := ((v.queues.filter (fun q => q.stage == i && q.input == 0)).map (fun q => q.recs.length)).sum

/-- Whether a stage closes: every used core has executed DONE, or a built-in stage has nothing more to come. -/
def stageEnds (v : Caravan) (i : Nat) (g : Stage) : Bool :=
  match g.builtin with
  | some _ => feederClosed v i 0 && waitingAt v i == 0
  | none => decide (g.clusters.length * g.usedCores ≤ (g.doneCores.filter (fun c => g.clusters.contains c.cluster)).length)

/-- One pass over a caravan's stages in their order. -/
def passStages (s : State) (id : Nat) : State :=
  match caravanOf s id with
  | none => s
  | some v => v.stages.zipIdx.foldl (fun s x =>
      let s := match x.1.builtin with
        | some kind => runBuiltin id x.2 kind (match caravanOf s id with
            | some v => waitingAt v x.2
            | none => 0) s x.1.clusters
        | none => s
      match caravanOf s id with
      | some v => match v.stages[x.2]? with
        | some g => if !g.closed && stageEnds v x.2 g then updStage s id x.2 (fun g => { g with closed := true }) else s
        | none => s
      | none => s) s

/-- A run's progress over its stages: a pass that leaves it as it was was the last. -/
def stageMeasure (s : State) (id : Nat) : Nat × Nat × Nat :=
  match caravanOf s id with
  | none => (0, 0, 0)
  | some v =>
    ((v.queues.map (fun q => q.recs.length)).sum, (v.stages.filter (fun g => g.closed)).length,
      match v.run with
      | some r => r.sinkRecs.length
      | none => 0)

def passAll (id : Nat) : Nat → State → State
  | 0, s => s
  | k + 1, s =>
    let s' := passStages s id
    if stageMeasure s' id = stageMeasure s id then s' else passAll id k s'

/-- Records in (n, k) order. -/
def sinkOrdered (l : List (BitVec 32 × Nat × Bool × List Byte)) : List (BitVec 32 × Nat × Bool × List Byte) :=
  l.mergeSort (fun a b => decide (a.1.toNat < b.1.toNat) || (a.1 == b.1 && decide (a.2.1 ≤ b.2.1)))

/-- A record at the sink: an 8 B header, the record, zeros to 8 B (R238). -/
def sinkBytes (r : BitVec 32 × Nat × Bool × List Byte) : List Byte :=
  let d := r.2.2.2
  leBytes 8 (r.1.toNat + d.length * 2 ^ 32 + (if r.2.2.1 then 2 ^ 48 else 0)) ++ d ++ List.replicate ((8 - d.length % 8) % 8) 0

/-- Lays records out in the sink's capacity: bytes, and the records discarded. -/
def fillSink (cap : Nat) : List (BitVec 32 × Nat × Bool × List Byte) → List Byte × Nat
  | [] => ([], 0)
  | r :: l =>
    let b := sinkBytes r
    if b.length ≤ cap then
      let (rest, d) := fillSink (cap - b.length) l
      (b ++ rest, d)
    else
      let (rest, d) := fillSink cap l
      (rest, d + 1)

/-- The end of a run: the sink is written, the descriptor gets its result, the caravan is free for the next run. -/
def endRun (s : State) (id : Nat) (forced : Option Stat) : State :=
  match caravanOf s id with
  | none => s
  | some v => match v.run with
    | none => s
    | some r =>
      let recs := sinkOrdered r.sinkRecs
      let (bytes, lost) := fillSink r.sinkCap recs
      let (s, w) := ownWrite s r.e v.room r.sink bytes
      let poisoned := (recs.filter (fun y => y.2.2.1)).length
      let st := match forced with
        | some f => f
        | none => worse (worse r.status.toNat w) (if poisoned > 0 then 0x01 else 0x00)
      let s := finishBy s r.e st (match forced with
          | some _ => r.nextRec * r.recSize
          | none => bytes.length)
        (min (2 ^ 32 - 1) lost * 2 ^ 32 + min 65535 poisoned * 65536 + min 65535 r.overruns)
      clearRun s id

/-- Every stage of a run has closed. -/
def runOver (v : Caravan) : Bool := v.run.isSome && v.stages.all (fun g => g.closed)

/-- What follows of itself after any event on a caravan's run. -/
def settleCaravan (s : State) (id : Nat) : State :=
  let s := passAll id 4096 s
  match caravanOf s id with
  | some v => if runOver v then endRun s id none else s
  | none => s

/-- `settleCaravan` for the caravan that a cluster serves. -/
def settleAt (s : State) (cluster : Nat) : State :=
  match stageAt s cluster with
  | some (v, _) => if v.run.isSome then settleCaravan s v.id else s
  | none => s

end Sys2Proof.Machine
end

