-- ==== Sys2Proof/Machine/CoreStream.lean ====
section
/-!
DEFINITION. Machine/CoreStream.lean: the record, transfer and control instructions of a core (Table 10-9, majors 0x30 and
0x38; R219, R221, R223, R229 to R232, R242), and JR.
-/

namespace Sys2Proof.Machine

/-! ### RECV -/

/-- A core goes on from its last input-0 record, or ends: that record is held no longer (R226, R227). -/
def passInput (s : State) (k : Core) : State :=
  match stageAt s k.id.cluster with
  | some (v, i) => if k.got then dropInput s v.id i k.id.cluster k.n k.inK else s
  | none => s

/-- Takes what RECV on queue `b` finds for a core and writes its handle to sd; none while it must wait. -/
def receive (s : State) (k : Core) (b : Nat) (d : Reg) : Option State :=
  match stageAt s k.id.cluster with
  | none => none
  | some (v, i) =>
    if b < 4 then
      match findInput s v i k b with
      | .nothing => none
      | .ended =>
        let s := if b = 0 then passInput s k else s
        let pos := match v.stages[i]? with
          | some g => (g.clusters.findIdx? (· == k.id.cluster)).getD 0
          | none => 0
        some (updCore s k.id fun k =>
          let k := (k.setS d (mkHandle 0 0 false true))
          let k := if b = 0 then { k with got := true, n := endLabel, k := (pos * 32 + k.id.core) * 2 ^ 32, flags := clearFlag k.flags flagPoison } else k
          { k with st := .running })
      | .record who r =>
        let s := if b = 0 then passInput s k else s
        let s := updCaravan s v.id fun v => popRec v i b k.id.cluster who
        some (updCore s k.id fun k =>
          let k := (k.setS d r.handle)
          let k := if b = 0 then
              { k with got := true, n := r.n, k := 0, inK := r.k, flags := setFlagIf (clearFlag k.flags flagPoison) flagPoison (handlePoison r.handle) }
            else k
          { k with st := .running, held := k.held ++ [r.handle] })
    else if !outHasRoom v i (b - 4) k.n then none
    else
      let a := freeBlock v k.id.cluster
      let dest := match v.stages[i + 1]? with
        | some g => if b = 4 then clusterFor g k.n else k.id.cluster
        | none => k.id.cluster
      let s := updCaravan s v.id fun v =>
        { v with bufs := v.bufs ++ [{ addr := a, cluster := k.id.cluster, stage := i, input := b, dest := dest, refs := 1 }] }
      let h := mkHandle a 0 false false
      some (updCore s k.id fun k => let k := k.setS d h; { k with st := .running, held := k.held ++ [h] })

/-- RECV (R242): waits while its queue is empty. -/
def execRecv (c : CoreId) (d b : Reg) (s : State) : Host.Outcome State Fault Refusal :=
  if b.toNat ≥ 8 then .refused .invalidEncoding
  else .next (match coreOf s c with
    | some k =>
      if k.st != .running then s
      else
        let s := updCore s c Core.next
        match receive s k b.toNat d with
        | some s' => settleAt s' c.cluster
        | none => settleAt (updCore s c fun k => { k with st := .recvWait b.toNat d }) c.cluster
    | none => s)

/-- RECV_WAKE: what the core waits for is there. -/
def execRecvWake (c : CoreId) (s : State) : Host.Outcome State Fault Refusal :=
  .next (match coreOf s c with
    | some k => match k.st with
      | .recvWait b d => (match receive s k b d with
        | some s' => settleAt s' c.cluster
        | none => s)
      | _ => s
    | none => s)

/-! ### SEND and FREE -/

/-- The handle that a core holds for a buffer address. -/
def heldHandle (k : Core) (h : Word) : Option Word := k.held.find? (fun x => x.toNat % 2 ^ 32 == h.toNat % 2 ^ 32)

/-- A core gives up a buffer. -/
def dropHeld (s : State) (c : CoreId) (h : Word) : State :=
  updCore (releaseBuf s c.cluster (handleAddr h)) c fun k => { k with held := k.held.erase h }

/-- SEND or FREE of a buffer the core does not hold: ignored, flag [6]. -/
def badHandle (s : State) (c : CoreId) : State :=
  updCore s c fun k => { k with flags := setFlag k.flags flagHandle }

/-- SEND (R230, R242). -/
def execSend (c : CoreId) (a b : Reg) (s : State) : Host.Outcome State Fault Refusal :=
  if b.toNat ≥ 4 then .refused .invalidEncoding
  else .next (match coreOf s c, stageAt s c.cluster with
    | some k, some (v, i) =>
      if k.st != .running then s
      else
        let s := updCore s c Core.next
        match heldHandle k (k.sreg a) with
        | none => badHandle s c
        | some h =>
          let data := readBytes s.engine.stores ((c.cluster * 33 + 32) * 2 ^ 22 + handleAddr h) (handleLen (k.sreg a))
          let poison := handlePoison (k.sreg a) || k.flags.getLsbD flagPoison
          let s := dropHeld s c h
          let s := sendRecord s v.id i b.toNat k.n k.k poison data
          settleAt (updCore s c fun k => { k with k := k.k + 1 }) c.cluster
    | _, _ => s)

/-- FREE. -/
def execFree (c : CoreId) (a : Reg) (s : State) : Host.Outcome State Fault Refusal :=
  .next (match coreOf s c with
    | some k =>
      if k.st != .running then s
      else
        let s := updCore s c Core.next
        match heldHandle k (k.sreg a) with
        | none => badHandle s c
        | some h => settleAt (dropHeld s c h) c.cluster
    | none => s)

/-! ### The end of a core's work -/

/-- The core ends for this run: what it holds is freed (R230). -/
def coreDone (s : State) (c : CoreId) : State :=
  match coreOf s c, stageAt s c.cluster with
  | some k, some (v, i) =>
    let s := k.held.foldl (fun s h => dropHeld s c h) (passInput s k)
    let s := updCore s c fun k => { k with st := .idle, held := [] }
    settleAt (updStage s v.id i fun g => { g with doneCores := if g.doneCores.contains c then g.doneCores else g.doneCores ++ [c] }) c.cluster
  | _, _ => updCore s c fun k => { k with st := .idle }

/-- DONE. -/
def execDone (c : CoreId) (s : State) : Host.Outcome State Fault Refusal :=
  .next (match coreOf s c with
    | some k => if k.st == .running then coreDone s c else s
    | none => s)

/-- JR (R219): a target at or beyond the code length acts as DONE. -/
def execJr (c : CoreId) (a : Reg) (s : State) : Host.Outcome State Fault Refusal :=
  .next (match coreOf s c with
    | some k =>
      if k.st != .running then s
      else
        let t := (k.sreg a).toNat - (k.sreg a).toNat % 4
        if t ≥ codeLenOf s c then coreDone s c else updCore s c fun k => { k with pc := BitVec.ofNat 16 t }
    | none => s)

/-- Whether a core is in its record's budget (R227): waits on queues 4 to 7, MWAIT, FENCE, MSYNC and the next input-0 record
are not. -/
def inBudget (k : Core) : Bool :=
  match k.st with
  | .running => k.got
  | .recvWait b _ => decide (1 ≤ b) && decide (b < 4)
  | _ => false

/-- The connected outputs of a stage: those with an edge, and output 0 of the last stage, which feeds the sink (R236). -/
def connectedOuts (v : Caravan) (i : Nat) : List Nat :=
  (List.range 4).filter (fun o => !(edgesFrom v i o).isEmpty || (o == 0 && i + 1 == v.stages.length))

/-- BUDGET_OVERRUN (R229): each poisoned record takes the next k (R221). -/
def execBudgetOverrun (c : CoreId) (s : State) : Host.Outcome State Fault Refusal :=
  .next (match coreOf s c, stageAt s c.cluster with
    | some k, some (v, i) =>
      if !inBudget k then s
      else
        let outs := connectedOuts v i
        let s := outs.zipIdx.foldl (fun s o => sendRecord s v.id i o.1 k.n (k.k + o.2) true []) s
        let s := k.held.foldl (fun s h => dropHeld s c h) s
        let entry := match v.stages[i]? with
          | some g => g.entry
          | none => 0
        let s := updCore s c fun k =>
          { id := c, pc := BitVec.ofNat 16 entry, flags := setFlag 0 flagRestarted, st := .running, got := k.got, n := k.n
            inK := k.inK, k := k.k + outs.length, transfers := k.transfers, nextTransfer := k.nextTransfer }
        let s := updCaravan s v.id fun v => { v with run := v.run.map fun r => { r with overruns := r.overruns + 1 } }
        settleAt s c.cluster
    | _, _ => s)

/-! ### Transfers (R231, R232) -/

/-- The room of the run that a core works for: its caravan's. -/
def runRoom (s : State) (c : CoreId) : RoomId :=
  match stageAt s c.cluster with
  | some (v, _) => v.room
  | none => 0

/-- The work class of the run that a core works for. -/
def runCls (s : State) (c : CoreId) : BitVec 2 :=
  match runEntry s c.cluster with
  | some en => workCls en
  | none => 0

/-- Adds a transfer to a core's. -/
def addTransfer (s : State) (c : CoreId) (t : Transfer) : State :=
  updCore s c fun k => { k with transfers := k.transfers ++ [t], nextTransfer := k.nextTransfer + 1 }

/-- One request of a core's transfer: the cluster's engine, the run's room and work class (R231). -/
def transferAsk (s : State) (c : CoreId) (t : Transfer) (op : Op) (g : Word) (n : Nat) : State :=
  addAsk s (.transfer c t.id) c.cluster op g n (runRoom s c) t.ocls (runCls s c)

/-- The lines of `n` bytes from `g`. -/
def linesOf (g : Word) (n : Nat) : List Nat :=
  if n = 0 then [] else (List.range ((bitsAt g 0 6 + n + 63) / 64)).map fun i => lineKey (g + BitVec.ofNat 64 (64 * i))

/-- A line that a cluster's line buffer holds (R232). -/
def lineBuffered (s : State) (cluster line : Nat) : Option (List Byte) :=
  (s.engine.lineBuf.find? (fun e => e.1 == cluster && e.2.1 == line)).map (fun e => e.2.2)

/-- One line of an MGET: the line buffer serves it where it may, else an LD goes to its home (R232). -/
def askGetLine (c : CoreId) (t : Transfer) (s : State) (l : Nat) : State :=
  match if t.volatile then none else lineBuffered s c.cluster l with
  | some d => { s with own := { s.own with got := s.own.got ++
      [{ who := .transfer c t.id, isRead := true, snap := false, gfa := lineGfa l, status := 0x00, data := d, at_ := s.time.now }] } }
  | none => transferAsk s c t (.ld t.volatile) (lineGfa l) 64

/-- MGET: sb bytes, 0 to 4,096, from GFA sa to local address sd; t[0] is volatile, t[2:1] the class. -/
def execMget (c : CoreId) (t : Ty) (d a b : Reg) (s : State) : Host.Outcome State Fault Refusal :=
  if t.toNat ≥ 8 then .refused .invalidEncoding
  else .next (match coreOf s c with
    | some k =>
      if k.st != .running then s
      else
        let x : Transfer := { id := k.nextTransfer, isGet := true, isSync := false, localAddr := (k.sreg d).extractLsb' 0 32, gfa := k.sreg a
                              bytes := min 4096 (k.sreg b).toNat, volatile := t.toNat % 2 == 1, ocls := BitVec.ofNat 2 (t.toNat / 2) }
        issueAsks ((linesOf x.gfa x.bytes).foldl (askGetLine c x) (addTransfer (updCore s c Core.next) c x))
    | none => s)

/-- The line requests of an MPUT: an ST of the part of each line; `k` bounds the lines. -/
def askPutLines (c : CoreId) (t : Transfer) : Nat → State → Word → List Byte → State
  | 0, s, _, _ => s
  | k + 1, s, g, data =>
    if data.isEmpty then s
    else
      let m := min data.length (64 - bitsAt g 0 6)
      askPutLines c t k (transferAsk s c t (.st (data.take m)) g m) (g + BitVec.ofNat 64 m) (data.drop m)

/-- MPUT: sb bytes from local address sd to GFA sa, as they stand when it issues. -/
def execMput (c : CoreId) (t : Ty) (d a b : Reg) (s : State) : Host.Outcome State Fault Refusal :=
  if t.toNat ≥ 8 ∨ t.toNat % 2 = 1 then .refused .invalidEncoding
  else .next (match coreOf s c with
    | some k =>
      if k.st != .running then s
      else
        let n := min 4096 (k.sreg b).toNat
        let x : Transfer := { id := k.nextTransfer, isGet := false, isSync := false, localAddr := (k.sreg d).extractLsb' 0 32, gfa := k.sreg a
                              bytes := n, volatile := false, ocls := BitVec.ofNat 2 (t.toNat / 2), data := localRead s c (k.sreg d) n }
        issueAsks (askPutLines c x 66 (addTransfer (updCore s c Core.next) c x) x.gfa x.data)
    | none => s)

/-- The sync operation of code 0x30 + t. -/
def syncOpOf (t : Nat) : SyncOp :=
  match t with
  | 0 => .ld
  | 1 => .st
  | 2 => .add
  | 3 => .cas
  | 4 => .waitGe
  | 5 => .waitNe
  | 6 => .acq
  | _ => .arrive

/-- The swap operand of an MSYNC: a SYNC_CAS has one, and the manual does not say where a core holds it. -/
def msyncSwap (s : State) (t : Ty) : Word := if t = 3 then Config.msyncSwap s.freeCount else 0

/-- MSYNC: one request of 8 bytes; the core waits for its response. Its timeout field is 0, which stands for T_dead − 1 us
(R149); the swap operand of a SYNC_CAS is free. -/
def execMsync (c : CoreId) (t : Ty) (d a b : Reg) (s : State) : Host.Outcome State Fault Refusal :=
  if t.toNat ≥ 8 then .refused .invalidEncoding
  else .next (match coreOf s c with
    | some k =>
      if k.st != .running then s
      else
        let x : Transfer := { id := k.nextTransfer, isGet := false, isSync := true, localAddr := 0, gfa := k.sreg a, bytes := 8
                              volatile := true, ocls := 0, syncOp := t.toNat, operand := k.sreg b }
        let op : Op := .sync (syncOpOf t.toNat) x.operand (msyncSwap s t) 0
        let s := drawn (updCore (addTransfer (updCore s c Core.next) c x) c fun k => { k with st := .msync x.id d })
        settleAll (issueAsks (transferAsk s c x op x.gfa 8))
    | none => s)

/-- Lines of a cluster's line buffer: 256 KiB (R215). -/
def lineBufMax : Nat := 4096

/-- Keeps a fetched line in a cluster's line buffer; its oldest line makes room (R232). -/
def keepLine (cluster : Nat) (s : State) (y : OwnGot) : State :=
  let l := lineKey y.gfa
  if y.status != 0x00 || (lineBuffered s cluster l).isSome then s
  else
    let mine := s.engine.lineBuf.filter (fun e => e.1 == cluster) ++ [(cluster, l, y.data)]
    { s with engine := { s.engine with
      lineBuf := s.engine.lineBuf.filter (fun e => e.1 != cluster) ++ mine.drop (mine.length - lineBufMax) } }

/-- A core whose waits have ended goes on: MWAIT but for the last n, FENCE for all. -/
def wakeCore (s : State) (c : CoreId) : State :=
  updCore s c fun k => match k.st with
    | .mwait n => if k.transfers.all (fun t => decide (t.id + n ≥ k.nextTransfer)) then { k with st := .running } else k
    | .fence => if k.transfers.isEmpty then { k with st := .running } else k
    | _ => k

/-- The answers that a transfer has. -/
def transferGot (s : State) (c : CoreId) (id : Nat) : List OwnGot := s.own.got.filter (fun y => y.who == .transfer c id)

/-- The byte at `g` that a transfer brought: the error value where its line came with a status other than 0x00 (R84, R231). -/
def gotByte (got : List OwnGot) (g : Word) : Byte :=
  match got.find? (fun y => lineKey y.gfa == lineKey g) with
  | some y => if y.status = 0x00 then y.data.getD (bitsAt g 0 6) 0xFF else 0xFF
  | none => 0xFF

/-- An MGET completes: its bytes enter the local or cluster store, and what it fetched stays in the line buffer. -/
def finishGet (s : State) (c : CoreId) (t : Transfer) (got : List OwnGot) : State :=
  let bad := got.any (fun y => y.status != 0x00)
  let bytes := (List.range t.bytes).map fun i => gotByte got (t.gfa + BitVec.ofNat 64 i)
  let s := if t.volatile then s else got.foldl (keepLine c.cluster) s
  let a : Word := t.localAddr.setWidth 64
  let hit := (List.range t.bytes).any (fun i => inCode s c (a + BitVec.ofNat 64 i))
  let s := localWriteBytes s c a bytes
  updCore s c fun k =>
    { k with flags := setFlagIf (setFlagIf (setFlagIf k.flags flagPoison bad) flagMemory bad) flagCodeStore hit }

/-- An MPUT completes. -/
def finishPut (s : State) (c : CoreId) (got : List OwnGot) : State :=
  updCore s c fun k => { k with flags := setFlagIf k.flags flagMemory (got.any (fun y => y.status != 0x00)) }

/-- An MSYNC completes: sd takes the value returned, and the core goes on. -/
def finishSync (s : State) (c : CoreId) (id : Nat) (got : List OwnGot) : State :=
  updCore s c fun k => match k.st with
    | .msync i d =>
      if i = id then
        let v : Word := match got.head? with
          | some y => BitVec.ofNat 64 (leVal (y.data.take 8))
          | none => 0
        let k := k.setS d v
        { k with st := .running, flags := setFlagIf k.flags flagMemory (got.any (fun y => y.status != 0x00)) }
      else k
    | _ => k

/-- TRANSFER_COMPLETE (R231, R232): the responses of a core's transfer are there. While one is missing it stays outstanding. -/
def execTransferComplete (c : CoreId) (id : Nat) (_ : Byte) (_ : Bool) (_ : List Byte) (s : State) : Host.Outcome State Fault Refusal :=
  .next (match coreOf s c with
    | none => s
    | some k => match k.transfers.find? (fun t => t.id == id) with
      | none => s
      | some t =>
        if awaits s (.transfer c id) then s
        else
          let got := transferGot s c id
          let s := dropAsks (updCore s c fun k => { k with transfers := k.transfers.filter (fun t => t.id != id) }) (.transfer c id)
          let s := if t.isSync then finishSync s c id got
            else if t.isGet then finishGet s c t got
            else finishPut s c got
          settleAt (wakeCore s c) c.cluster)

/-- MWAIT: until every transfer but the last n is complete. -/
def execMwait (c : CoreId) (a : Reg) (s : State) : Host.Outcome State Fault Refusal :=
  .next (match coreOf s c with
    | some k =>
      if k.st != .running then s
      else wakeCore (updCore s c fun k => { k.next with st := .mwait (k.sreg a).toNat }) c
    | none => s)

/-- FENCE: until every transfer of the core is complete. -/
def execFence (c : CoreId) (s : State) : Host.Outcome State Fault Refusal :=
  .next (match coreOf s c with
    | some k => if k.st != .running then s else wakeCore (updCore s c fun k => { k.next with st := .fence }) c
    | none => s)

/-! ### CSRR (Table 10-12) -/

/-- A control and status register of a core. -/
def csrValue (s : State) (k : Core) (n : Nat) : Word :=
  match stageAt s k.id.cluster with
  | none => if n = 0 then BitVec.ofNat 64 k.id.core else if n = 1 then BitVec.ofNat 64 k.id.cluster
      else if n = 7 then k.flags.setWidth 64 else 0
  | some (v, i) =>
    let g := v.stages[i]?
    match n with
    | 0 => BitVec.ofNat 64 k.id.core
    | 1 => BitVec.ofNat 64 k.id.cluster
    | 2 => BitVec.ofNat 64 i
    | 3 => (match g with
      | some g => fieldOf 16 16 g.clusters.length ||| fieldOf 0 16 ((g.clusters.findIdx? (· == k.id.cluster)).getD 0)
      | none => 0)
    | 4 => (match runEntry s k.id.cluster with
      | some en => (descSeq en.desc).setWidth 64
      | none => 0)
    | 5 => v.room.setWidth 64
    | 6 => BitVec.ofNat 64 (clusterClock s k.id.cluster)
    | 7 => k.flags.setWidth 64
    | 14 => (match v.run with
      | some r => BitVec.ofNat 64 r.recSize
      | none => 0)
    | 15 => BitVec.ofNat 64 v.id
    | n => if 8 ≤ n ∧ n ≤ 13 then (match g with
        | some g => g.prm.getD (n - 8) 0
        | none => 0) else 0

/-- CSRR: a nonzero a field with CSR 7 clears every flag it returns. -/
def execCsrr (c : CoreId) (d a b : Reg) (s : State) : Host.Outcome State Fault Refusal :=
  .next (onCore s c fun k =>
    let v := csrValue s k b.toNat
    let k := if b = 7 ∧ a ≠ 0 then { k with flags := 0 } else k
    (k.setS d v).next)

end Sys2Proof.Machine
end

