-- ==== Sys2Proof/Machine/Caravan.lean ====
section
/-!
DEFINITION. Machine/Caravan.lean: the caravan descriptors (R233 to R239), placement (R225) and the source reader (R221, R223).
-/

namespace Sys2Proof.Machine

/-! ### Images (R233, R234) -/

/-- A branch or JAL at offset `pc` of code of `len` bytes leads within it. -/
def targetInside (i : Instr) (pc len : Nat) : Bool :=
  let ok := fun (off : Int) => decide (0 ≤ (pc : Int) + 4 * off) && decide ((pc : Int) + 4 * off < (len : Int))
  match i with
  | .beq _ _ _ off => ok off.toInt
  | .bne _ _ _ off => ok off.toInt
  | .blt _ _ _ off => ok off.toInt
  | .bge _ _ _ off => ok off.toInt
  | .jal _ _ off => ok off.toInt
  | _ => true

/-- Whether the word at offset `pc` of the code is a valid instruction. -/
def wordOk (w : BitVec 32) (pc len : Nat) : Bool :=
  match decodeCoreWord { cluster := 0, core := 0 } w with
  | some i => targetInside i pc len
  | none => false

/-- The offset of the first byte or word of an image that fails a check (Table 10-4). -/
def imageBad (b : List Byte) (len : Nat) : Option Nat :=
  let code := leAt b 8 4
  let data := leAt b 12 4
  let need := leAt b 16 4
  let inputs := leAt b 24 1
  let fields : List (Nat × Bool) :=
    [(0, leAt b 0 4 == 0x4E565243), (4, leAt b 4 2 == 1), (6, decide (leAt b 6 1 ≤ 1)),
     (7, decide (1 ≤ leAt b 7 1) && decide (leAt b 7 1 ≤ 32)),
     (8, code % 4 == 0 && decide (4 ≤ code) && decide (code ≤ 65536) && decide (64 + code ≤ len)),
     (12, decide (code + data ≤ need) && decide (64 + code + data ≤ len)), (16, decide (need ≤ 262144)),
     (20, decide (leAt b 20 4 + 4096 * 2 * max 1 inputs ≤ 4194304)),
     (24, decide (1 ≤ inputs) && decide (inputs ≤ 4)), (25, decide (leAt b 25 1 ≤ 4)),
     (26, leAt b 26 2 % 4 == 0 && decide (leAt b 26 2 < code)), (28, decide (1 ≤ leAt b 28 4)),
     (40, leAt b 40 4 == (crc32c (b.drop 64)).toNat), (44, leAt b 44 20 == 0)]
  match fields.find? (fun x => !x.2) with
  | some x => some x.1
  | none => ((List.range (code / 4)).map (fun i => 64 + 4 * i)).find?
      (fun o => !wordOk (BitVec.ofNat 32 (leAt b o 4)) (o - 64) code)

/-! ### The caravan record (Tables 10-5 to 10-7) -/

/-- A stage as its entry asks for it, before it is placed: the stage, its clusters, the same-die flag. -/
structure Asked where
  stage : Stage
  clusters : Nat
  sameDie : Bool
  clamps : Nat
  deriving DecidableEq, Repr

/-- Costs of the built-in stages. -/
def builtinCosts (k : Nat) : Nat × Nat :=
  match k with
  | 2 => (96, 64)
  | 3 => (128, 96)
  | 4 => (128, 512)
  | 5 => (128, 64)
  | 6 => (64, 32)
  | 7 => (32, 16)
  | _ => (1, 0)

def differs (a b : Nat) : Nat := if a = b then 0 else 1

/-- Reads stage entry `i`: the stage asked for, or the status and the offset that end the open. -/
def readStage (s : State) (en : Entry) (rec_ : List Byte) (i : Nat) : Asked ⊕ (Stat × Nat) :=
  let b := (rec_.drop (64 + 64 * i)).take 64
  let h := leAt b 0 8
  let n := clampNat 1 144 (leAt b 12 1)
  let d0 := leAt b 14 2
  let prm := (List.range 6).map fun k => BitVec.ofNat 64 (leAt b (16 + 8 * k) 8)
  let basic := differs n (leAt b 12 1) + differs (leAt b 13 1 % 2) (leAt b 13 1)
  if h / 2 ^ 63 = 1 then
    let k := h % 65536
    if k = 0 ∨ k > 7 then .inr (0x03, 0)
    else
      let d := clampNat 2 256 d0
      let st : Stage := { builtin := some k, clusters := [], usedCores := 1, codeLen := 0, dataInit := [], code := [], localNeed := 0
                          inputs := 1, outputs := 1, entry := 0, cRec := (builtinCosts k).1, cByte := (builtinCosts k).2
                          ratio := 65536, rerunUnsafe := false, depth := d, prm := prm }
      .inl { stage := st, clusters := n, sameDie := leAt b 13 1 % 2 == 1, clamps := basic + differs d d0 }
  else
    let len := clampNat 64 327744 (leAt b 8 4)
    let got := ownRead s en.n (BitVec.ofNat 64 (h - h % 64)) len
    if got.status ≠ 0x00 ∧ got.status ≠ 0x01 then .inr (got.status, 0)
    else match imageBad got.bytes len with
      | some o => .inr (0x03, o)
      | none =>
        let im := got.bytes
        let inputs := leAt im 24 1
        let d := min (clampNat 2 256 d0) ((4194304 - leAt im 20 4) / (4096 * inputs))
        let code := leAt im 8 4
        let st : Stage := { builtin := none, clusters := [], usedCores := leAt im 7 1, codeLen := code
                            dataInit := (im.drop (64 + code)).take (leAt im 12 4), code := (im.drop 64).take code
                            localNeed := leAt im 16 4, inputs := inputs, outputs := leAt im 25 1, entry := leAt im 26 2
                            cRec := leAt im 28 4, cByte := leAt im 32 4, ratio := leAt im 36 4
                            rerunUnsafe := leAt im 6 1 == 1, depth := d, prm := prm }
        .inl { stage := st, clusters := n, sameDie := leAt b 13 1 % 2 == 1
               clamps := basic + differs d d0 + differs (h % 64) 0 + differs len (leAt b 8 4) }

/-- An edge entry: the edge if it is not ignored, and its clamps. -/
def readEdge (stages : Nat) (w : Nat) : Option (Edge × Nat) :=
  let f := w / 2 ^ 56 % 256
  let o := w / 2 ^ 48 % 256
  let t := w / 2 ^ 40 % 256
  let i := w / 2 ^ 32 % 256
  if f ≥ stages ∨ t ≤ f ∨ t ≥ stages then none
  else
    let e : Edge := { fromStage := f, fromOut := min 3 o, toStage := t, toIn := clampNat 1 3 i }
    some (e, differs e.fromOut o + differs e.toIn i)

/-! ### Placement (R225) -/

/-- Places stages in order; none if the room lacks clusters. -/
def placeStages : List Asked → List Nat → List Nat → Option (List Stage)
  | [], _, _ => some []
  | a :: l, free, prev =>
    match placeStage free a.clusters a.sameDie prev with
    | none => none
    | some cs =>
      (placeStages l (free.filter (fun c => !cs.contains c)) ((cs.map (fun c => c / 36)).eraseDups)).map
        (fun r => { a.stage with clusters := cs } :: r)

/-- The caravan dies joined to the I/O die that serves a ring. -/
def ringDies (r : BitVec 12) : List Nat := if r.toNat % 2 = 0 then [0, 1] else [2, 3]

/-! ### CARAVAN_OPEN (R235 to R237) -/

/-- Reads every stage, or the first stage that ends the open. -/
def readStages (s : State) (en : Entry) (rec_ : List Byte) : Nat → Nat → List Asked ⊕ (Stat × Nat)
  | 0, _ => .inl []
  | k + 1, i =>
    match readStage s en rec_ i with
    | .inr (st, o) => .inr (st, i * 2 ^ 56 + o)
    | .inl a => match readStages s en rec_ k (i + 1) with
      | .inl l => .inl (a :: l)
      | .inr r => .inr r

/-- The lowest caravan ID that is free. -/
def freeCaravan (s : State) : Nat := ((List.range 256).find? (fun i => (caravanOf s i).isNone)).getD 0

/-- A caravan record as read: what each stage asks for, the edges, and the clamps; or the status that ends the open, with bytes 24
to 31. -/
def readCaravan (s : State) (en : Entry) (x : Cells) : (List Asked × List Edge × Nat) ⊕ (Stat × Nat) :=
  let g := descWord en.desc 16
  let head := listRead s en x g 64
  if head.status ≠ 0x00 then .inr (head.status, 0)
  else if leAt head.bytes 0 2 ≠ 1 then .inr (0x03, 0)
  else
    let n := clampNat 1 16 (leAt head.bytes 2 1)
    let m := min 64 (leAt head.bytes 3 1)
    let got := listRead s en x g (64 + 64 * n + 8 * m)
    if got.status ≠ 0x00 then .inr (got.status, 0)
    else match readStages s en got.bytes n 0 with
      | .inr r => .inr r
      | .inl asked =>
        let edges := (List.range m).filterMap fun i => readEdge n (leAt got.bytes (64 + 64 * n + 8 * i) 8)
        .inl (asked, edges.map (fun e => e.1),
          differs n (leAt head.bytes 2 1) + differs m (leAt head.bytes 3 1) + (asked.map (fun a => a.clamps)).sum
            + (edges.map (fun e => e.2)).sum)

/-- The placement of a caravan for a descriptor. -/
def placeCaravan (s : State) (en : Entry) (asked : List Asked) : Option (List Stage) :=
  placeStages asked (clustersFor s (entryRoom en) (some en.n)) (ringDies en.ring)

/-- The test of a CARAVAN_OPEN reads the record and the images: it is refused where the room lacks the clusters (R225); anything
wrong in them is for the open to report. -/
def caravanOpenTest (x : Cells) (s : State) (en : Entry) : State :=
  match readCaravan s en x with
  | .inr (st, _) => if isLack st then finishStatus s en.n st 0 0 else passTest s en [] en.promise
  | .inl (asked, _, _) =>
    match placeCaravan s en asked with
    | none => finishRefused s en.n 0x06
    | some stages =>
      let bytes := (stages.map (fun g => if g.builtin.isNone then 64 + g.codeLen + g.dataInit.length else 0)).sum
      passTest s en (stages.flatMap (fun g => g.clusters)) (en.tA + 1000000 + 20000 * stages.length + bytes / 4)

/-- CARAVAN_OPEN on an entry that runs. -/
def caravanOpenRun (x : Cells) (s : State) (en : Entry) : State :=
  match readCaravan s en x with
  | .inr (st, v) => finishStatus s en.n st 0 v
  | .inl (asked, edges, clamps) =>
    let s := recordClamps s en clamps
    match placeCaravan s en asked with
    | none => finishStatus s en.n 0x04 0 0
    | some stages =>
      let id := freeCaravan s
      let v : Caravan := { id := id, room := entryRoom en, stages := stages, edges := edges }
      let s := updLedger s en.n fun y => { y with claims := [] }
      let s := { s with engine := { s.engine with caravans := s.engine.caravans ++ [v] } }
      finishDone s en.n id (stages.map (fun g => g.clusters.length)).sum

/-- CARAVAN_OPEN (R234 to R237): its test while it is not accepted, then its work. -/
def execCaravanOpen (e : Nat) (x : Cells) (s : State) : Host.Outcome State Fault Refusal :=
  .next (withEntry (withTest s e 0x40 (caravanOpenTest x)) e 0x40 (caravanOpenRun x))

/-! ### CARAVAN_RUN (R221, R238, R239) -/

/-- The cores of a stage at the start of a run (R215). -/
def startCores (g : Stage) : List Core :=
  if g.builtin.isSome then []
  else g.clusters.flatMap fun c => (List.range g.usedCores).map fun k =>
    { id := { cluster := c, core := k }, pc := BitVec.ofNat 16 g.entry, st := .running }

/-- The local store of a core at the start of a run: above the code the data initialisation, then zeros. -/
def initStore (m : List Host.Cell) (g : Stage) (c : CoreId) : List Host.Cell :=
  let base := (c.cluster * 33 + c.core) * 2 ^ 22
  writeBytes (clearRange m base (2 ^ 18)) (base + g.codeLen) g.dataInit

/-- Earlier accepted runs of the caravan that are not done: runs execute one at a time, in acceptance order. -/
def runBefore (s : State) (en : Entry) (id : Nat) : Bool :=
  (s.ledger.entries.takeWhile (fun y => y.n != en.n)).any fun y =>
    descOp y.desc == 0x41 && descField y.desc 16 1 == id && y.st != .mirroring && y.result.isNone

/-- A run starts: its cores, their stores, and the source reader. -/
def startRun (s : State) (en : Entry) (v : Caravan) : State :=
  let d := en.desc
  let r : Run := { e := en.n, recSize := descField d 20 4, src := descWord d 24, srcLen := descField d 32 8
                   sink := descWord d 40, sinkCap := descField d 48 8 }
  let cores := v.stages.flatMap startCores
  let stores := v.stages.foldl (fun m g => (startCores g).foldl (fun m c => initStore m g c.id) m) s.engine.stores
  let cs := v.stages.flatMap (fun g => g.clusters)
  let s := { s with engine := { s.engine with
    cores := s.engine.cores.filter (fun k => !cs.contains k.id.cluster) ++ cores, stores := stores
    lineBuf := s.engine.lineBuf.filter (fun b => !cs.contains b.1) } }
  let s := updCaravan s v.id fun v => { v with run := some r }
  -- R346: a rerun-unsafe run is mirrored as started before stage 0 receives its first record.
  if v.stages.any (fun g => g.rerunUnsafe) then
    mirrorEntry (updLedger s en.n fun y => { y with rerunStarted := true }) en.n
  else s

/-- CARAVAN_RUN on an entry that runs. -/
def caravanRunRun (s : State) (en : Entry) : State :=
  match s.engine.caravans.find? (fun v => v.id == descField en.desc 16 1 && fromRoom en v.room) with
  | none => finishStatus s en.n (absentStatus en) 0 0
  | some v => match v.run with
    | some r => if r.e = en.n then settleCaravan s v.id else s
    | none => if runBefore s en v.id then s
      else if v.stages.any (fun g => g.clusters.isEmpty) then finishStatus s en.n 0x04 0 0
      else settleCaravan (startRun s en v) v.id

/-- CARAVAN_RUN (R238). -/
def execCaravanRun (e : Nat) (_ : Cells) (s : State) : Host.Outcome State Fault Refusal := .next (withEntry s e 0x41 caravanRunRun)

/-- CARAVAN_CLOSE on an entry that runs. -/
def caravanCloseRun (s : State) (en : Entry) : State :=
  match s.engine.caravans.find? (fun v => v.id == descField en.desc 16 1 && fromRoom en v.room) with
  | none => finishStatus s en.n (absentStatus en) 0 0
  | some v =>
    let left := s.ledger.entries.any fun y =>
      descOp y.desc == 0x41 && descField y.desc 16 1 == v.id && fromRoom y v.room && y.st != .mirroring && y.result.isNone
    if left then s
    else finishDone { s with engine := { s.engine with caravans := s.engine.caravans.filter (fun y => y.id != v.id) } } en.n 0 0

/-- CARAVAN_CLOSE (R239). -/
def execCaravanClose (e : Nat) (s : State) : Host.Outcome State Fault Refusal := .next (withEntry s e 0x42 caravanCloseRun)

/-- The source reader delivers the next record of a run, read with the engine of the first cluster of stage 0 (R465), unless the
pool of stage 0 is full; after the last one come the end records. -/
def deliverSource (s : State) (v : Caravan) (r : Run) : State :=
  let at_ := r.nextRec * r.recSize
  match v.stages[0]? with
  | none => s
  | some g =>
    let n : BitVec 32 := BitVec.ofNat 32 r.nextRec
    let c := clusterFor g n
    if r.ended then s
    else if at_ ≥ r.srcLen then updCaravan s v.id fun v => { v with run := some { r with ended := true } }
    else if poolUse v 0 0 c ≥ g.depth then s
    else
      let len := min r.recSize (r.srcLen - at_)
      let (s, got) := readNow s r.e (g.clusters.headD 519) v.room (r.src + BitVec.ofNat 64 at_) len
      if isLack got.status then s
      else if got.status = 0x06 then endRun s v.id (some 0x06)
      else
        let r' : Run := { r with
          nextRec := r.nextRec + 1, ended := decide (at_ + len ≥ r.srcLen)
          status := if got.status = 0x01 then r.status else BitVec.ofNat 8 (worse r.status.toNat got.status) }
        let s := updCaravan (dropGot s (.work r.e)) v.id fun v => { v with run := some r' }
        let s := storeRecord s v.id 0 0 c 1 n 0 (got.status != 0x00) got.bytes [none]
        updLedger s r.e fun y => { y with
          position := BitVec.ofNat 64 (at_ + len), progress := 10000 * (at_ + len) / max 1 r.srcLen }

/-- SOURCE_READER_DELIVER (R221, R223). -/
def execSourceReaderDeliver (caravan : Nat) (_ : Cells) (s : State) : Host.Outcome State Fault Refusal :=
  .next (match caravanOf s caravan with
    | some v => match v.run with
      | some r => if isRunning s then settleCaravan (deliverSource s v r) caravan else s
      | none => s
    | none => s)

end Sys2Proof.Machine
end

