-- ==== Sys2Proof/Machine/Collective.lean ====
section
/-!
DEFINITION. Machine/Collective.lean: the collective descriptors and packets (R254 to R269).
-/

namespace Sys2Proof.Machine

/-! ### COLL_OPEN (R254 to R256, R259) -/

/-- Reads the member table: entries with an index in range that is not used yet; the flag says that every agent of them is a
member of the room. -/
def readTable8 (s : State) (room : RoomId) (total : Nat) : Nat → List Byte → List (AgentId × Nat) → List (AgentId × Nat) × Bool
  | 0, _, l => (l, true)
  | k + 1, b, l =>
    let a : AgentId := BitVec.ofNat 18 (leAt b 0 4)
    let i := leAt b 4 2
    let (l', ok) := if i ≥ total ∨ l.any (fun m => m.2 == i) then (l, true)
      else (l ++ [(a, i)], isMember s a room)
    let (r, ok') := readTable8 s room total k (b.drop 8) l'
    (r, ok && ok')

/-- State of one chunk of a context, in bytes (R256). -/
def chunkState (mode elements total switches : Nat) : Nat :=
  elements * (accWidth mode / 8 + 1) + (total + 7) / 8 + (switches + 7) / 8

/-- The lowest general group that is free (R69). -/
def freeGroup (s : State) : Nat :=
  ((List.range (s.fab.groups.length + 1)).map (fun i => 0x10000 + i)).find? (fun i => !s.fab.groups.any (fun g => g.id == i)) |>.getD 0x10000

/-- The window that fits the clusters' stores. -/
def fitK (c : Context) (k clusters : Nat) : Nat :=
  let sc := chunkState (ctxMode c) (ctxChunk c) c.total c.nSwitches
  min k (clusters * 3145728 / max 1 ((if c.nSwitches = 1 then 1 else 2) * sc))

/-- COLL_OPEN on an entry that runs. -/
def collOpenRun (s : State) (en : Entry) : State :=
  let d := en.desc
  let room := entryRoom en
  let lead : SwitchId := BitVec.ofNat 16 (descField d 18 2)
  if (contextOf s lead (descField d 16 2)).isSome then finishStatus s en.n 0x03 0 0
  else
    let n := descField d 20 2
    let total := descField d 22 2
    let tab := ownRead s en.n (descWord d 32) (8 * n)
    let roots := ownRead s en.n (descWord d 40) (2 * descField d 26 1)
    let bad := worse tab.status roots.status
    if bad ≠ 0x00 then finishStatus s en.n bad 0 0
    else
      let (members, ok) := readTable8 s room total n tab.bytes []
      if !ok then finishStatus s en.n 0x03 0 0
      else match placeStage (clustersFor s room (some en.n)) (descField d 52 1) false [] with
        | none => finishStatus s en.n 0x04 0 0
        | some cs =>
          let coded := descField d 53 1 == 1
          let tables : Got := if coded then ownRead s en.n (descWord d 56) 8448 else { bytes := [], status := 0x00 }
          if isLack tables.status then finishStatus s en.n tables.status 0 0
          else
            let c : Context := {
              lead := lead, ctx := BitVec.ofNat 10 (descField d 16 2), room := room, members := members, total := total
              nSwitches := descField d 24 2
              roots := (List.range (descField d 26 1)).map fun i => BitVec.ofNat 16 (leAt roots.bytes (2 * i) 2)
              type := BitVec.ofNat 4 (descField d 27 1), chunkBytes := descField d 28 2, k := 0
              go := if descField d 48 4 ≥ 2 ^ 31 then none else some (descField d 48 4)
              clusters := cs, coded := coded, resultTable := descField d 54 1, tables := descWord d 56, tableBytes := tables.bytes
              group := freeGroup s }
            let k := fitK c (descField d 30 2) cs.length
            let c := { c with k := k }
            let s := clampLate s en.n 20 2 members.length
            let s := clampLate s en.n 30 2 k
            let g : Group := { id := c.group, ports := (members.flatMap (fun m => portsToward s room c.group m.1)).eraseDups, localDelivery := false }
            let s := { s with
              coll := { s.coll with ctxs := s.coll.ctxs ++ [c] }
              fab := { s.fab with groups := s.fab.groups ++ [g] } }
            finishDone s en.n k cs.length

/-- COLL_OPEN (R255). -/
def execCollOpen (e : Nat) (_ : Cells) (s : State) : Host.Outcome State Fault Refusal := .next (withEntry s e 0x48 collOpenRun)

/-! ### COLL_RUN (R263, R264) -/

/-- An entry that was not accepted yet is accepted and ends at once with a status. -/
def acceptAndEnd (s : State) (en : Entry) (status : Stat) : State :=
  let s := mirrorEntry (updLedger s en.n fun y => { y with st := .accepted, epoch := currentEpoch s (entryRoom en) }) en.n true
  mirrorHeld (finishStatus (startEntry s en.n) en.n status 0 0) en.ring

/-- The parameters of a run. -/
def runParams (s : State) (c : Context) (en : Entry) : CollParams :=
  let d := en.desc
  { lead := c.lead, ctx := c.ctx, round := BitVec.ofNat 32 (c.rounds + 1), op := descField d 18 1
    resultType := BitVec.ofNat 4 (descField d 19 1), rootMember := descField d 20 2, count := descField d 24 8
    resultGfa := descWord d 32, floor := descField d 40 4, cls := descClass d
    promise := if descClass d = 0 then descDeadline d else en.tA + (descSize s d * 1000 + descFloor d - 1) / max 1 (descFloor d) }

/-- The round of a context that is being reserved: not accepted yet. -/
def reserving (c : Context) : Option Round := c.waiting.find? (fun r => !r.accepted)

/-- Every switch has answered: a refusal ends the run, a full reservation is mirrored (R264). -/
def checkReserved (s : State) (c : Context) : State :=
  match reserving (ctxNow s c) with
  | none => s
  | some r => match r.e with
    | none => s
    | some e =>
      if r.reserved.length + r.refusers.length < c.nSwitches then s
      else match r.refusal with
        | none => mirrorEntry s e
        | some why =>
          let s := toSwitches s c r 0x93 vcRsp 0 0xFFF 0 false []
          let s := endHere (unbook s e) c r
          let s := updCtx s c fun c => { c with rounds := c.rounds - 1 }
          if why = 0x7F then (match ledgerEntry s e with
            | some en => acceptAndEnd s en 0x03
            | none => s)
          else
            let s := { s with innk := { s.innk with refused := s.innk.refused + 1 } }
            let s := updRoom s c.room fun x => { x with refused := x.refused + 1 }
            finish s e { status := 0x02, byte5 := why.setWidth 8, progress := 0, r16 := BitVec.ofNat 64 r.latest }

/-- Takes a switch's answer at the lead. -/
def takeReply (s : State) (c : Context) (x : SwitchId) (reason : BitVec 7) (deadline k : Nat) : State :=
  match reserving (ctxNow s c) with
  | none => s
  | some r =>
    let s := updRoundAt s c r.params.round fun r =>
      if r.reserved.contains x || r.refusers.contains x then r
      else if reason = 0 then { r with reserved := r.reserved ++ [x], kRun := min r.kRun k }
      else { r with refusers := r.refusers ++ [x], refusal := some (r.refusal.getD reason), latest := max r.latest deadline }
    checkReserved s c

/-- Starts the reservation of a run at the lead. -/
def reserveRun (s : State) (c : Context) (en : Entry) : State :=
  let p := runParams s c en
  let r : Round := { params := p, e := some en.n, kRun := c.k }
  let s := updCtx s c fun c => { c with rounds := c.rounds + 1, waiting := c.waiting ++ [r] }
  let s := (otherSwitches s c).foldl (fun s x => say s (.event 8 (x.toNat + c.ctx.toNat * 2 ^ 16))) s
  match testShare s c p en.tA with
  | .inl q => takeReply (bookPlan s en.n c.room (p.cls == 1) q) c (selfId s) 0 0 c.k
  | .inr (why, t) => takeReply s c (selfId s) (BitVec.ofNat 7 why) t 0

/-- An entry of a COLL_RUN that waits for its reservation: every earlier descriptor of its ring is accepted, or its refusal
recorded (R5, R347). -/
def waitsToReserve (s : State) (en : Entry) : Bool :=
  descOp en.desc == 0x49 && en.result.isNone && isRunning s && (roundOf s en.n).isNone
    && !refusedBefore s en && (en.st == .mirroring || (en.replayed && en.st == .accepted))

/-- COLL_RUN (R263, R264): its reservation; one of a context at a time, for the switches' answers name no round. -/
def execCollRun (e : Nat) (s : State) : Host.Outcome State Fault Refusal :=
  .next (match ledgerEntry s e with
    | none => s
    | some en =>
      if !waitsToReserve s en then s
      else match contextOf s (selfId s) (descField en.desc 16 2) with
        | none => acceptAndEnd s en (absentStatus en)
        | some c =>
          if !fromRoom en c.room || c.closing.isSome then acceptAndEnd s en 0x03
          else if (reserving c).isSome then s
          else if c.rounds + 1 ≥ 2 ^ 31 then acceptAndEnd s en 0x03
          else reserveRun s c en)

/-- The ledger entry of a switch's share of a run (R264). -/
def shareEntry (s : State) (c : Context) (p : CollParams) : Entry :=
  let d := [(0, 2, 0x49), (2, 1, c.room.toNat), (3, 1, p.cls), (8, 8, p.promise), (16, 2, p.ctx.toNat), (18, 1, p.op),
    (19, 1, p.resultType.toNat), (20, 2, p.rootMember), (24, 8, p.count), (32, 8, p.resultGfa.toNat), (40, 4, p.floor)].foldl
    (fun (d : BitVec 512) x => putField d x.1 x.2.1 x.2.2) (0 : BitVec 512)
  { n := ((List.range (s.ledger.entries.length + 1)).find? (fun n => (ledgerEntry s n).isNone)).getD 0
    desc := d, ring := 0, st := .accepted, mgmt := false, epoch := currentEpoch s c.room, tA := stamp s 18, promise := p.promise
    started := true, adopted := true, share := true }

/-- COLL_RESERVE (R264): a switch tests its share of a run, mirrors an entry for it, and answers the lead. -/
def execCollReserve (p : CollParams) (s : State) : Host.Outcome State Fault Refusal :=
  let reply := fun (s : State) (reason t k : Nat) => say s (.event 9 (reason + p.ctx.toNat * 2 ^ 7 + k * 2 ^ 17 + t * 2 ^ 32))
  .next (if !isRunning s then s
    else match contextOf s p.lead p.ctx.toNat with
      | none => reply s 0x7F 0 0
      | some c =>
        if c.closing.isSome then reply s 0x7F 0 0
        else match testShare s c p (stamp s 18) with
          | .inr (why, t) => reply s why t 0
          | .inl q =>
            let s := match roundAt c p.round with
              | some r => endHere s c r
              | none => s
            let en := shareEntry s c p
            let s := { s with ledger := { s.ledger with entries := s.ledger.entries ++ [en] } }
            let s := mirrorEntry (bookPlan s en.n c.room (p.cls == 1) q) en.n true
            let r : Round := { params := p, share := some en.n, kRun := c.k }
            let s := updCtx s c fun c => { c with rounds := p.round.toNat, waiting := c.waiting ++ [r] }
            beginNext (reply s 0 0 c.k) c)

/-- COLL_RESERVE_REPLY (R264) at the lead. -/
def execCollReserveReply (ctx : BitVec 10) (switch : SwitchId) (reason : BitVec 7) (deadline : Word) (k : Nat) (s : State) :
    Host.Outcome State Fault Refusal :=
  .next (match contextOf s (selfId s) ctx.toNat with
    | some c => if isRunning s then takeReply s c switch reason deadline.toNat k else s
    | none => s)

/-- COLL_CLOSE on an entry that runs. -/
def collCloseRun (s : State) (en : Entry) : State :=
  let d := en.desc
  match contextOf s (BitVec.ofNat 16 (descField d 18 2)) (descField d 16 2) with
  | none => finishStatus s en.n (absentStatus en) 0 0
  | some c =>
    if !fromRoom en c.room then finishStatus s en.n 0x03 0 0
    else
      let waits := c.lead == selfId s && s.ledger.entries.any fun y =>
        descOp y.desc == 0x49 && descField y.desc 16 2 == c.ctx.toNat && !y.share && y.st != .mirroring && y.result.isNone
      if waits || !c.waiting.isEmpty || c.round.any (fun r => !r.ended && decide (r.mark < runChunks c r)) then s
      else
        let s := match c.round with
          | some r => endHere s c r
          | none => s
        let s := { s with
          coll := { s.coll with ctxs := s.coll.ctxs.filter (fun y => !(y.lead == c.lead && y.ctx == c.ctx)) }
          fab := { s.fab with groups := s.fab.groups.filter (fun g => g.id != c.group) } }
        finishDone s en.n 0 0

/-- COLL_CLOSE (R257). -/
def execCollClose (e : Nat) (s : State) : Host.Outcome State Fault Refusal := .next (withEntry s e 0x4A collCloseRun)

/-! ### Packets (R258, R261, R267, R268) -/

/-- Takes the packet out of the inbox and finds its open context; without one it is discarded and counted (R258). -/
def withContext (s : State) (opcode : BitVec 8) (p : CollPkt) (f : State → Context → State) : State :=
  if !isRunning s then s
  else
    let s := takeInbox s opcode p.src (BitVec.ofNat 20 p.chunk)
    match contextOf s p.lead p.ctx.toNat with
    | none => { s with coll := { s.coll with discarded := s.coll.discarded + 1 } }
    | some c => f s c

/-- A packet of the context's present round. -/
def withRound (s : State) (c : Context) (p : CollPkt) (f : State → Round → State) : State :=
  match c.round with
  | some r => if r.params.round = p.round ∧ !r.ended then f s r else updCtx s c fun c => { c with lateData := c.lateData + 1 }
  | none => updCtx s c fun c => { c with lateData := c.lateData + 1 }

/-- COLL_DATA (R261): from a member of the table; held until its round is accepted. -/
def execCollData (p : CollPkt) (s : State) : Host.Outcome State Fault Refusal :=
  .next (withContext s 0x90 p fun s c =>
    if !c.members.contains (p.src, p.member) then { s with coll := { s.coll with discarded := s.coll.discarded + 1 } }
    else
      let s := drainEarly s c
      let c := ctxNow s c
      match c.round with
      | some r =>
        if p.round = r.params.round ∧ (roundLive s c r ∨ r.ended) then takeContribution s c r p
        else if p.round.toNat < r.params.round.toNat then updCtx s c fun c => { c with lateData := c.lateData + 1 }
        else updCtx s c fun c => { c with early := c.early ++ [p] }
      | none => updCtx s c fun c => { c with early := c.early ++ [p] })

/-- COLL_PART (R260, R261, R267) at the root: for a chunk that is complete, also of a round at its end, the root sends COLL_ACK
again. -/
def execCollPart (p : CollPkt) (leaf : SwitchId) (s : State) : Host.Outcome State Fault Refusal :=
  .next (withContext s 0x91 p fun s c =>
    if c.waiting.any (fun r => r.params.round == p.round) then
      updCtx s c fun c => { c with earlyParts := c.earlyParts ++ [(p, leaf)] }
    else match (c.round.toList ++ c.past.toList).find? (fun r => r.params.round == p.round) with
      | some r =>
        if (rootOf r p.chunk).complete && leaf != selfId s then
          emit s (collPacket s c r 0x93 vcRsp (switchAgentId s leaf) p.chunk 0 0 false [])
        else withRound s c p fun s r => takePart s c r p leaf
      | none => withRound s c p fun s r => takePart s c r p leaf)

/-- COLL_RESULT (R259) at a switch of the context. -/
def execCollResult (p : CollPkt) (s : State) : Host.Outcome State Fault Refusal :=
  .next (withContext s 0x92 p fun s c =>
    match (c.round.toList ++ c.past.toList).find? (fun r => r.params.round == p.round) with
    | some r => toMembers s c r p.chunk p.member p.first p.poison p.data
    | none => s)

/-- COLL_ACK of a chunk at a leaf (R267). -/
def execCollAck (p : CollPkt) (s : State) : Host.Outcome State Fault Refusal :=
  .next (withContext s 0x93 p fun s c => withRound s c p fun s _ => leafAck s c p.chunk)

/-- COLL_COUNT_REPORT (R268) at the lead. -/
def execCollCountReport (p : CollPkt) (poisoned : Nat) (s : State) : Host.Outcome State Fault Refusal :=
  .next (withContext s 0x93 p fun s c =>
    if (openRounds c).any (fun r => r.params.round == p.round) then
      (if c.lead = selfId s then takeReport s c p.round p.src p.chunk poisoned else s)
    else updCtx s c fun c => { c with lateData := c.lateData + 1 })

/-- COLL_RUN_ENDED (R268): the round's state is discarded. -/
def execCollRunEnded (p : CollPkt) (s : State) : Host.Outcome State Fault Refusal :=
  .next (withContext s 0x93 p fun s c => match roundAt c p.round with
    | some r => if r.ended then updCtx s c fun c => { c with lateData := c.lateData + 1 } else beginNext (endHere s c r) c
    | none => updCtx s c fun c => { c with lateData := c.lateData + 1 })

/-- COLL_PROMISE_TIME (R268): a run that is not complete ends with status 0x04. -/
def execCollPromiseTime (ctx : BitVec 10) (s : State) : Host.Outcome State Fault Refusal :=
  .next (match contextOf s (selfId s) ctx.toNat with
    | some c =>
      if !isRunning s then s
      else match (openRounds c).find? (fun r => r.accepted && decide (r.params.promise ≤ s.time.now)) with
        | some r => beginNext (endRound s c r.params.round 0x04) c
        | none => s
    | none => s)

end Sys2Proof.Machine
end

