-- ==== Sys2Proof/Machine/CoreScalar.lean ====
section
/-!
DEFINITION. Machine/CoreScalar.lean: the scalar, branch, load and store instructions of a core (Table 10-9, majors 0x01 to
0x16), MVX and TIME.
-/

namespace Sys2Proof.Machine

/-- sd = f(sa, sb), then the next instruction. -/
def scalarOp (s : State) (c : CoreId) (d a b : Reg) (f : Word → Word → Word) : State :=
  onCore s c fun k => (k.setS d (f (k.sreg a) (k.sreg b))).next

/-- sd = f(sa), then the next instruction. -/
def scalarImm (s : State) (c : CoreId) (d a : Reg) (f : Word → Word) : State :=
  onCore s c fun k => (k.setS d (f (k.sreg a))).next

/-- Branches where a condition on sa and sb holds. -/
def branchIf (s : State) (c : CoreId) (a b : Reg) (off : BitVec 16) (f : Word → Word → Bool) : State :=
  onCore s c fun k => if f (k.sreg a) (k.sreg b) then k.branch off.toInt else k.next

/-- ADD. -/
def execAdd (c : CoreId) (d a b : Reg) (s : State) : Host.Outcome State Fault Refusal := .next (scalarOp s c d a b (· + ·))

/-- SUB. -/
def execSub (c : CoreId) (d a b : Reg) (s : State) : Host.Outcome State Fault Refusal := .next (scalarOp s c d a b (· - ·))

/-- AND. -/
def execAnd (c : CoreId) (d a b : Reg) (s : State) : Host.Outcome State Fault Refusal := .next (scalarOp s c d a b (· &&& ·))

/-- OR. -/
def execOr (c : CoreId) (d a b : Reg) (s : State) : Host.Outcome State Fault Refusal := .next (scalarOp s c d a b (· ||| ·))

/-- XOR. -/
def execXor (c : CoreId) (d a b : Reg) (s : State) : Host.Outcome State Fault Refusal := .next (scalarOp s c d a b (· ^^^ ·))

/-- SHL: by sb[5:0]. -/
def execShl (c : CoreId) (d a b : Reg) (s : State) : Host.Outcome State Fault Refusal :=
  .next (scalarOp s c d a b fun x y => x <<< (y.toNat % 64))

/-- SHR: logical, by sb[5:0]. -/
def execShr (c : CoreId) (d a b : Reg) (s : State) : Host.Outcome State Fault Refusal :=
  .next (scalarOp s c d a b fun x y => x >>> (y.toNat % 64))

/-- SRA: arithmetic, by sb[5:0]. -/
def execSra (c : CoreId) (d a b : Reg) (s : State) : Host.Outcome State Fault Refusal :=
  .next (scalarOp s c d a b fun x y => x.sshiftRight (y.toNat % 64))

/-- MUL: the low 64 bits. -/
def execMul (c : CoreId) (d a b : Reg) (s : State) : Host.Outcome State Fault Refusal := .next (scalarOp s c d a b (· * ·))

/-- SLT: signed. -/
def execSlt (c : CoreId) (d a b : Reg) (s : State) : Host.Outcome State Fault Refusal :=
  .next (scalarOp s c d a b fun x y => if x.toInt < y.toInt then 1 else 0)

/-- ADDI. -/
def execAddi (c : CoreId) (d a : Reg) (imm : BitVec 16) (s : State) : Host.Outcome State Fault Refusal :=
  .next (scalarImm s c d a (· + sext imm))

/-- ANDI: zero-extended immediate. -/
def execAndi (c : CoreId) (d a : Reg) (imm : BitVec 16) (s : State) : Host.Outcome State Fault Refusal :=
  .next (scalarImm s c d a (· &&& imm.setWidth 64))

/-- ORI: zero-extended immediate. -/
def execOri (c : CoreId) (d a : Reg) (imm : BitVec 16) (s : State) : Host.Outcome State Fault Refusal :=
  .next (scalarImm s c d a (· ||| imm.setWidth 64))

/-- SHLI: by imm[5:0]. -/
def execShli (c : CoreId) (d a : Reg) (imm : BitVec 16) (s : State) : Host.Outcome State Fault Refusal :=
  .next (scalarImm s c d a fun x => x <<< (imm.toNat % 64))

/-- SHRI: logical, by imm[5:0]. -/
def execShri (c : CoreId) (d a : Reg) (imm : BitVec 16) (s : State) : Host.Outcome State Fault Refusal :=
  .next (scalarImm s c d a fun x => x >>> (imm.toNat % 64))

/-- LUI: sext(imm) << 16. -/
def execLui (c : CoreId) (d : Reg) (imm : BitVec 16) (s : State) : Host.Outcome State Fault Refusal :=
  .next (scalarImm s c d 0 fun _ => sext imm <<< 16)

/-- BEQ. -/
def execBeq (c : CoreId) (a b : Reg) (off : BitVec 16) (s : State) : Host.Outcome State Fault Refusal :=
  .next (branchIf s c a b off fun x y => x == y)

/-- BNE. -/
def execBne (c : CoreId) (a b : Reg) (off : BitVec 16) (s : State) : Host.Outcome State Fault Refusal :=
  .next (branchIf s c a b off fun x y => x != y)

/-- BLT: signed. -/
def execBlt (c : CoreId) (a b : Reg) (off : BitVec 16) (s : State) : Host.Outcome State Fault Refusal :=
  .next (branchIf s c a b off fun x y => decide (x.toInt < y.toInt))

/-- BGE: signed. -/
def execBge (c : CoreId) (a b : Reg) (off : BitVec 16) (s : State) : Host.Outcome State Fault Refusal :=
  .next (branchIf s c a b off fun x y => decide (y.toInt ≤ x.toInt))

/-- JAL: sd = pc + 4. -/
def execJal (c : CoreId) (d : Reg) (off : BitVec 21) (s : State) : Host.Outcome State Fault Refusal :=
  .next (onCore s c fun k => (k.setS d (BitVec.ofNat 64 (k.pc.toNat + 4))).branch off.toInt)

/-- LDW: zero-extended. -/
def execLdw (c : CoreId) (d a : Reg) (imm : BitVec 16) (s : State) : Host.Outcome State Fault Refusal :=
  .next (onCore s c fun k => (k.setS d (BitVec.ofNat 64 (localVal s c (k.sreg a + sext imm) 4))).next)

/-- LDD. -/
def execLdd (c : CoreId) (d a : Reg) (imm : BitVec 16) (s : State) : Host.Outcome State Fault Refusal :=
  .next (onCore s c fun k => (k.setS d (BitVec.ofNat 64 (localVal s c (k.sreg a + sext imm) 8))).next)

/-- A store of a register's low bytes on a running core, then the next instruction. -/
def storeOp (s : State) (c : CoreId) (n : Nat) (addr : Core → Word) (val : Core → Nat) : State :=
  match coreOf s c with
  | some k => if k.st == .running then updCore (localStore s c (addr k) n (val k)) c Core.next else s
  | none => s

/-- STW. -/
def execStw (c : CoreId) (d a : Reg) (imm : BitVec 16) (s : State) : Host.Outcome State Fault Refusal :=
  .next (storeOp s c 4 (fun k => k.sreg a + sext imm) (fun k => (k.sreg d).toNat))

/-- STD. -/
def execStd (c : CoreId) (d a : Reg) (imm : BitVec 16) (s : State) : Host.Outcome State Fault Refusal :=
  .next (storeOp s c 8 (fun k => k.sreg a + sext imm) (fun k => (k.sreg d).toNat))

/-- VLD: the immediate counts 32 B. -/
def execVld (c : CoreId) (d a : Reg) (imm : BitVec 16) (s : State) : Host.Outcome State Fault Refusal :=
  .next (onCore s c fun k => (k.setV d (BitVec.ofNat 256 (localVal s c (k.sreg a + 32 * sext imm) 32))).next)

/-- VST. -/
def execVst (c : CoreId) (d a : Reg) (imm : BitVec 16) (s : State) : Host.Outcome State Fault Refusal :=
  .next (storeOp s c 32 (fun k => k.sreg a + 32 * sext imm) (fun k => (k.vreg d).toNat))

/-- VGTH: element i = M32[sa + vb[i]] where p[i] is set. -/
def execVgth (c : CoreId) (t : Ty) (d a b : Reg) (p : PReg) (s : State) : Host.Outcome State Fault Refusal :=
  if t ≠ 0 ∧ t ≠ 6 then .refused .invalidEncoding
  else .next (onCore s c fun k =>
    (k.setV d (mapElems 32 (k.preg p) (k.vreg d) fun i =>
      (localVal s c (k.sreg a + BitVec.ofNat 64 (elem (k.vreg b) 32 i)) 4, {})).1).next)

/-- MVX: xa or xb = sa. -/
def execMvx (c : CoreId) (f : BitVec 1) (a : Reg) (s : State) : Host.Outcome State Fault Refusal :=
  .next (onCore s c fun k => (if f = 0 then { k with xa := k.sreg a } else { k with xb := k.sreg a }).next)

/-- TIME: the cluster's copy of fabric time (R13). -/
def execTime (c : CoreId) (d : Reg) (s : State) : Host.Outcome State Fault Refusal :=
  .next (onCore s c fun k => (k.setS d (BitVec.ofNat 64 (stamp s (100 + c.cluster)))).next)

end Sys2Proof.Machine
end

