-- ==== Sys2Proof/Machine/CoreVector.lean ====
section
/-!
DEFINITION. Machine/CoreVector.lean: the vector and exact-accumulator instructions of a core (Table 10-9, majors 0x20, 0x21
and 0x28; R244 to R253).
-/

namespace Sys2Proof.Machine

/-- Types of VADD: FP32, BF16, FP16, INT32, INT8. -/
def arithTypes : List Nat := [0x0, 0x1, 0x2, 0x6, 0x7]

/-- Types of VDOT. -/
def dotTypes : List Nat := [0x1, 0x2, 0x3, 0x4, 0x5, 0x7, 0x8, 0x9, 0xA, 0xB]

/-- Every type but the MX codes. -/
def plainTypes : List Nat := [0x0, 0x1, 0x2, 0x3, 0x4, 0x5, 0x6, 0x7, 0x8]

/-- Types of VSHUF, as widths 32, 16, 8 and 4. -/
def shufTypes : List Nat := [0x0, 0x1, 0x3, 0x5]

/-- Runs an instruction on a core where its type is one that Table 10-9 allows. -/
def typed (s : State) (c : CoreId) (t : Ty) (allowed : List Nat) (f : Core → Core) : Host.Outcome State Fault Refusal :=
  if allowed.contains t.toNat then .next (onCore s c f) else .refused .invalidEncoding

/-- An element operation on va, vb and vd where p is set. -/
def vecOp (t : Ty) (d a b : Reg) (p : PReg) (f : Nat → Nat → Nat → Nat × Raised) (k : Core) : Core :=
  let w := tyWidth t.toNat
  let (v, r) := mapElems w (k.preg p) (k.vreg d) fun i => f (elem (k.vreg d) w i) (elem (k.vreg a) w i) (elem (k.vreg b) w i)
  ((k.setV d v).raised r).next

/-- VADD. -/
def execVadd (c : CoreId) (t : Ty) (d a b : Reg) (p : PReg) (s : State) : Host.Outcome State Fault Refusal :=
  typed s c t arithTypes (vecOp t d a b p fun _ x y => elAdd t.toNat x y)

/-- VSUB. -/
def execVsub (c : CoreId) (t : Ty) (d a b : Reg) (p : PReg) (s : State) : Host.Outcome State Fault Refusal :=
  typed s c t arithTypes (vecOp t d a b p fun _ x y => elSub t.toNat x y)

/-- VMUL. -/
def execVmul (c : CoreId) (t : Ty) (d a b : Reg) (p : PReg) (s : State) : Host.Outcome State Fault Refusal :=
  typed s c t arithTypes (vecOp t d a b p fun _ x y => elMul t.toNat x y)

/-- VFMA: one rounding. -/
def execVfma (c : CoreId) (t : Ty) (d a b : Reg) (p : PReg) (s : State) : Host.Outcome State Fault Refusal :=
  typed s c t arithTypes (vecOp t d a b p fun z x y => elFma t.toNat z x y)

/-- VMAX (R245). -/
def execVmax (c : CoreId) (t : Ty) (d a b : Reg) (p : PReg) (s : State) : Host.Outcome State Fault Refusal :=
  typed s c t arithTypes (vecOp t d a b p fun _ x y => elMaxMin t.toNat true x y)

/-- VMIN (R245). -/
def execVmin (c : CoreId) (t : Ty) (d a b : Reg) (p : PReg) (s : State) : Host.Outcome State Fault Refusal :=
  typed s c t arithTypes (vecOp t d a b p fun _ x y => elMaxMin t.toNat false x y)

/-- A byte of a scale register. -/
def scaleByte (x : Word) (i : Nat) : Nat := bitsAt x (8 * (i % 8)) 8

/-- VDOT's operation (R247): element i takes the pairs i·g to i·g + g − 1; an MX block has 32 elements. -/
def dotOp (t : Ty) (d a b : Reg) (k : Core) : Core :=
  let w := tyWidth t.toNat
  let g := 256 / (8 * w)
  let q := if t.toNat = 0xB then 2 else 1
  let rs := (List.range 8).map fun i =>
    let j := i * g / 32
    elDot t.toNat (scaleByte k.xa (j + a.toNat * q)) (scaleByte k.xb (j + b.toNat * q)) (elem (k.vreg d) 32 i)
      ((List.range g).map fun m => (elem (k.vreg a) w (i * g + m), elem (k.vreg b) w (i * g + m)))
  ((k.setV d (vecOf 32 (rs.map (fun x => x.1)))).raised ((rs.map (fun x => x.2)).foldl Raised.or {})).next

/-- VDOT. -/
def execVdot (c : CoreId) (t : Ty) (d a b : Reg) (s : State) : Host.Outcome State Fault Refusal :=
  typed s c t dotTypes (dotOp t d a b)

/-- VCVT's operation (R246): b[3:0] is the destination type, b[4] the half of the source or of vd, bits [255:128] (DEDUCED). -/
def cvtOp (t : Ty) (d a b : Reg) (k : Core) : Core :=
  let dst := b.toNat % 16
  let half := b.toNat / 16
  let ws := tyWidth t.toNat
  let wd := tyWidth dst
  let n := min (256 / ws) (256 / wd)
  let from_ := if wd > ws && half == 1 then 128 / ws else 0
  let rs := (List.range n).map fun i => elCvt t.toNat dst (elem (k.vreg a) ws (from_ + i))
  let v := ofElems wd (rs.map (fun x => x.1))
  let old := (k.vreg d).toNat
  let out := if wd < ws then (if half = 1 then old % 2 ^ 128 + v * 2 ^ 128 else v) else v
  ((k.setV d (BitVec.ofNat 256 out)).raised ((rs.map (fun x => x.2)).foldl Raised.or {})).next

/-- VCVT: a destination that is an MX or a reserved code is no encoding of the table. -/
def execVcvt (c : CoreId) (t : Ty) (d a b : Reg) (s : State) : Host.Outcome State Fault Refusal :=
  if plainTypes.contains (b.toNat % 16) then typed s c t plainTypes (cvtOp t d a b) else .refused .invalidEncoding

/-- A function of each element of va. -/
def unaryOp (d a : Reg) (f : Nat → Nat × Raised) (k : Core) : Core :=
  let (v, r) := mapElems 32 (BitVec.allOnes 64) 0 fun i => f (elem (k.vreg a) 32 i)
  ((k.setV d v).raised r).next

/-- VEXP2 (R248). -/
def execVexp2 (c : CoreId) (t : Ty) (d a : Reg) (s : State) : Host.Outcome State Fault Refusal :=
  typed s c t [0x0] (unaryOp d a elExp2)

/-- VRCP (R248). -/
def execVrcp (c : CoreId) (t : Ty) (d a : Reg) (s : State) : Host.Outcome State Fault Refusal :=
  typed s c t [0x0] (unaryOp d a elRcp)

/-- The elements of va where p is set. -/
def chosen (t : Ty) (a : Reg) (p : PReg) (k : Core) : List Nat :=
  let w := tyWidth t.toNat
  ((List.range (lanes w)).filter (fun i => (k.preg p).getLsbD i)).map fun i => elem (k.vreg a) w i

/-- A reduction into element 0; other elements zero. -/
def reduceOp (d : Reg) (f : Core → Nat × Raised) (k : Core) : Core :=
  let (v, r) := f k
  ((k.setV d (BitVec.ofNat 256 (v % 2 ^ 32))).raised r).next

/-- VRSUM: exact, one rounding to FP32, or INT32. -/
def execVrsum (c : CoreId) (t : Ty) (d a : Reg) (p : PReg) (s : State) : Host.Outcome State Fault Refusal :=
  typed s c t [0x0, 0x1, 0x2, 0x6] (reduceOp d fun k => elSum t.toNat (chosen t a p k))

/-- Maximum of a list of elements; the manual states none for an empty one. -/
def elMaxList (t : Nat) (l : List Nat) : Nat × Raised :=
  match l with
  | [] => (Config.emptyMax t, {})
  | x :: l => l.foldl (fun (p : Nat × Raised) y =>
      let (v, r) := elMaxMin t true p.1 y
      (v, p.2.or r)) (x, { invalid := (decodeNum t x).isNan })

/-- VRMAX. -/
def execVrmax (c : CoreId) (t : Ty) (d a : Reg) (p : PReg) (s : State) : Host.Outcome State Fault Refusal :=
  typed s c t [0x0, 0x6] (reduceOp d fun k => elMaxList t.toNat (chosen t a p k))

/-- VCMP's operation: bits of p(d[2:0]); bits above the elements are cleared. -/
def cmpOp (t : Ty) (d a b : Reg) (k : Core) : Core :=
  let w := tyWidth t.toNat
  let rs := (List.range (lanes w)).map fun i => elCmp t.toNat (d.toNat / 8) (elem (k.vreg a) w i) (elem (k.vreg b) w i)
  let v := (rs.zipIdx.filter (fun x => x.1.1)).foldl (fun n x => n + 2 ^ x.2) 0
  ((k.setP (BitVec.ofNat 3 d.toNat) (BitVec.ofNat 64 v)).raised ((rs.map (fun x => x.2)).foldl Raised.or {})).next

/-- VCMP. -/
def execVcmp (c : CoreId) (t : Ty) (d a b : Reg) (s : State) : Host.Outcome State Fault Refusal :=
  typed s c t arithTypes (cmpOp t d a b)

/-- VSEL: every element written. -/
def execVsel (c : CoreId) (t : Ty) (d a b : Reg) (p : PReg) (s : State) : Host.Outcome State Fault Refusal :=
  typed s c t plainTypes fun k =>
    let w := tyWidth t.toNat
    (k.setV d (vecOf w ((List.range (lanes w)).map fun i =>
      if (k.preg p).getLsbD i then elem (k.vreg a) w i else elem (k.vreg b) w i))).next

/-- VAND. -/
def execVand (c : CoreId) (d a b : Reg) (s : State) : Host.Outcome State Fault Refusal :=
  .next (onCore s c fun k => (k.setV d (k.vreg a &&& k.vreg b)).next)

/-- VOR. -/
def execVor (c : CoreId) (d a b : Reg) (s : State) : Host.Outcome State Fault Refusal :=
  .next (onCore s c fun k => (k.setV d (k.vreg a ||| k.vreg b)).next)

/-- VXOR. -/
def execVxor (c : CoreId) (d a b : Reg) (s : State) : Host.Outcome State Fault Refusal :=
  .next (onCore s c fun k => (k.setV d (k.vreg a ^^^ k.vreg b)).next)

/-- VSHUF: vd[i] = va[vb[i] mod count]. -/
def execVshuf (c : CoreId) (t : Ty) (d a b : Reg) (s : State) : Host.Outcome State Fault Refusal :=
  typed s c t shufTypes fun k =>
    let w := tyWidth t.toNat
    (k.setV d (vecOf w ((List.range (lanes w)).map fun i => elem (k.vreg a) w (elem (k.vreg b) w i % lanes w)))).next

/-- VBCAST: every element is the low bits of sa. -/
def execVbcast (c : CoreId) (t : Ty) (d a : Reg) (s : State) : Host.Outcome State Fault Refusal :=
  typed s c t shufTypes fun k =>
    let w := tyWidth t.toNat
    (k.setV d (vecOf w (List.replicate (lanes w) (k.sreg a).toNat))).next

/-- VEXT: sd = zext(va[sb mod count]). -/
def execVext (c : CoreId) (t : Ty) (d a b : Reg) (s : State) : Host.Outcome State Fault Refusal :=
  typed s c t shufTypes fun k =>
    let w := tyWidth t.toNat
    (k.setS d (BitVec.ofNat 64 (elem (k.vreg a) w ((k.sreg b).toNat % lanes w)))).next

/-! ### Exact accumulators -/

/-- XADD's operation (R250): elements d and b of va, each only if its predicate bit is set. -/
def xaddOp (t : Ty) (d a b : Reg) (p : PReg) (k : Core) : Core :=
  let w := tyWidth t.toNat
  let poison := k.flags.getLsbD flagPoison
  let one := fun (x : Acc) (i : Nat) =>
    if (k.preg p).getLsbD i then accAdd x t.toNat (elem (k.vreg a) w (i % lanes w)) poison else (x, false)
  let (x0, f0) := one k.acc0 d.toNat
  let (x1, f1) := one k.acc1 b.toNat
  ({ k with acc0 := x0, acc1 := x1, flags := setFlagIf k.flags flagInvalid (f0 || f1) }).next

/-- XADD. -/
def execXadd (c : CoreId) (t : Ty) (d a b : Reg) (p : PReg) (s : State) : Host.Outcome State Fault Refusal :=
  typed s c t xrndTypes (xaddOp t d a b p)

/-- XSAVE (R251): the 64 B state, aligned down. -/
def execXsave (c : CoreId) (d a : Reg) (s : State) : Host.Outcome State Fault Refusal :=
  .next (match coreOf s c with
    | some k =>
      if k.st == .running then updCore (localStore s c (k.sreg a) 64 (accBits (k.acc (d.toNat % 2))).toNat) c Core.next else s
    | none => s)

/-- XLOAD (R251). -/
def execXload (c : CoreId) (d a : Reg) (s : State) : Host.Outcome State Fault Refusal :=
  .next (onCore s c fun k =>
    let (x, bad) := accOf (BitVec.ofNat 512 (localVal s c (k.sreg a) 64))
    let k := k.setAcc (d.toNat % 2) x
    ({ k with flags := setFlagIf k.flags flagInvalid bad }).next)

/-- XRND (R253). -/
def execXrnd (c : CoreId) (t : Ty) (d b : Reg) (s : State) : Host.Outcome State Fault Refusal :=
  typed s c t xrndTypes fun k =>
    let (v, r) := accRound (k.acc (b.toNat % 2)) t.toNat
    ((k.setS d (BitVec.ofNat 64 v)).raised r).next

end Sys2Proof.Machine
end

