-- ==== Sys2Proof/Machine/FabricTime.lean ====
section
/-!
DEFINITION. Machine/FabricTime.lean: the package time reference and its sources (R316 to R321, R410, R442): BFP time frames,
PTP, the 1PPS input and output, holdover.
-/

namespace Sys2Proof.Machine

/-! ### What this switch announces (R318, Table 14-1) -/

/-- Grandmaster, priority, clock class and steps removed of the time in use. -/
def timeData (s : State) : Nat × Nat × Nat × Nat :=
  let own := (0xFFFFFFFFFFFF0000 + (selfId s).toNat, timePrio s, 248, 0)
  if s.time.source = 2 then (match s.time.follow with
    | some (_, cls, prio, gm, steps, _) => (gm, prio, cls, steps + 1)
    | none => own)
  else if s.time.source = 0 then (match s.time.ptp with
    | some (_, prio, cls, gm, steps) => (gm, prio, cls, steps + 1)
    | none => own)
  else own

/-- Bytes 8 to 407 of a time frame. -/
def timeFrame (s : State) (msg : Nat) (seq : BitVec 16) (tReq : Nat) : List Byte :=
  let (gm, prio, cls, steps) := timeData s
  beBytes 1 0x30 ++ beBytes 1 msg ++ beBytes 2 seq.toNat ++ List.replicate 4 0 ++ beBytes 8 s.time.now ++ beBytes 8 tReq
    ++ beBytes 8 gm ++ beBytes 1 prio ++ beBytes 1 cls ++ beBytes 1 (min 255 steps) ++ beBytes 1 s.time.lock
    ++ List.replicate 364 0

/-- TIME_SYNC_TICK (R319): a sync on every fabric port that is up. -/
def execTimeSyncTick (s : State) : Host.Outcome State Fault Refusal :=
  .next (if isRunning s then
      ((s.fab.ports.map (fun q => q.id)).filter (fun n => decide (n < 128) && portUp s n)).foldl (fun s n =>
        match fabPort s n with
        | some q => sendCtl (updFab s n fun q => { q with syncSeq := q.syncSeq + 1 }) n 0x30 (timeFrame s 0x00 q.syncSeq 0)
        | none => s) s
    else s)

/-- DELAY_REQUEST_TICK (R319): a request toward the neighbour followed. -/
def execDelayRequestTick (s : State) : Host.Outcome State Fault Refusal :=
  .next (match s.time.follow with
    | some (n, _) =>
      if isRunning s && decide (n < 128) && portUp s n then
        match fabPort s n with
        | some q =>
          let seq := q.reqSeq + 1
          sendCtl (updFab s n fun q => { q with reqSeq := seq, reqTx := some s.time.now }) n 0x30 (timeFrame s 0x01 seq 0)
        | none => s
      else s
    | none => s)

/-! ### Sources (R317, R320) -/

/-- Place of a source in the order of `TIME.SRC_CTL`. -/
def sourceRank (s : State) (src : Nat) : Nat :=
  ((List.range 4).find? (fun i => timeOrder s i == src)).getD 4

/-- Removes an offset of the reference from its source: by one step before the first acceptance, otherwise by slewing. -/
def correct (s : State) (offset : Int) : State :=
  if !s.time.accepted && !s.time.stepped then
    { s with time := { s.time with
      copy := max s.time.copy s.time.now
      now := (((s.time.now : Int) - offset) % ((2 ^ 64 : Nat) : Int)).toNat, stepped := true, offset := 0, slew := 0 } }
  else { s with time := { s.time with offset := offset, slew := -offset } }

/-- The source in use cannot answer any more: the port that it is heard on is down. -/
def sourceGone (s : State) : Bool :=
  match s.time.source with
  | 0 => (match s.time.ptp with
    | some p => !portUp s p.1
    | none => false)
  | 2 => (match s.time.follow with
    | some p => !portUp s p.1
    | none => false)
  | _ => false

/-- A source answers with an offset: it is taken unless a source named before it is in use and can answer. -/
def takeSource (s : State) (src : Nat) (offset : Int) : State :=
  if !sourceGone s && decide (sourceRank s src > sourceRank s s.time.source) then s
  else if src = 3 then { s with time := { s.time with source := 3, lock := 3, slew := 0 } }
  else
    let s := correct { s with time := { s.time with source := src } } offset
    let close := decide (s.time.offset ≤ 5) && decide (-5 ≤ s.time.offset)
    let s := { s with time := { s.time with lock := if close then 0 else 1 } }
    { s with time := { s.time with steps := (timeData s).2.2.2 } }

/-- Whether the tuple of a neighbour comes before another, field by field (R317). -/
def tupleBefore (a b : Nat × Nat × Nat × Nat × Nat) : Bool :=
  let l := [(a.1, b.1), (a.2.1, b.2.1), (a.2.2.1, b.2.2.1), (a.2.2.2.1, b.2.2.2.1), (a.2.2.2.2, b.2.2.2.2)]
  match l.find? (fun p => p.1 != p.2) with
  | some p => decide (p.1 < p.2)
  | none => false

/-- The neighbour that a sync comes from is followed if its tuple is the lowest, or if it is the one followed (R317). -/
def followSync (s : State) (n : Nat) (f : TimeFrame) : State :=
  let t := (f.clockClass.toNat, f.prio.toNat, f.grandmaster.toNat, f.steps.toNat, f.neighbour.toNat)
  let take : Bool := match s.time.follow with
    | none => true
    | some (m, u) => m == n || !portUp s m || tupleBefore t u
  if take then { s with time := { s.time with follow := some (n, t) } } else s

/-- TIME_SYNC (R319): stamped for the next offset. -/
def execTimeSync (port : Nat) (f : TimeFrame) (s : State) : Host.Outcome State Fault Refusal :=
  .next (if isRunning s && decide (port < 128) && portUp s port then
      followSync (updFab s port fun q => { q with lastSync := some (f.tTx, f.tRx) }) port f
    else s)

/-- DELAY_REQUEST (R318): answered with the time at which its first bit arrived. -/
def execDelayRequest (port : Nat) (f : TimeFrame) (s : State) : Host.Outcome State Fault Refusal :=
  .next (if isRunning s && decide (port < 128) && portUp s port then sendCtl s port 0x30 (timeFrame s 0x02 f.seq f.tRx) else s)

/-- The offset of R319. -/
def syncOffset (tTxSync tRxSync tTxReq tReq : Nat) : Int :=
  (((tRxSync : Int) - tTxSync) - ((tReq : Int) - tTxReq)) / 2

/-- The link delay of R319. -/
def syncDelay (tTxSync tRxSync tTxReq tReq : Nat) : Int :=
  (((tRxSync : Int) - tTxSync) + ((tReq : Int) - tTxReq)) / 2

/-- DELAY_RESPONSE (R319): the follower computes its offset. -/
def execDelayResponse (port : Nat) (f : TimeFrame) (s : State) : Host.Outcome State Fault Refusal :=
  .next (match s.time.follow, fabPort s port with
    | some (n, _), some q =>
      match q.reqTx, q.lastSync with
      | some tTx, some (a, b) =>
        if isRunning s && n == port && portUp s port && f.seq == q.reqSeq then
          takeSource (updFab s port fun q => { q with reqTx := none }) 2 (syncOffset a b tTx f.tReq)
        else s
      | _, _ => s
    | _, _ => s)

/-- TIME_SOURCE_ANSWER (R317): a source named before the lane reference clock answers. -/
def execTimeSourceAnswer (source : BitVec 2) (offset : Int) (s : State) : Host.Outcome State Fault Refusal :=
  .next (if isRunning s then takeSource s source.toNat offset else s)

/-- TIME_SOURCE_WAIT (R317): 2 s after the lock no source has answered; the reference runs free. -/
def execTimeSourceWait (s : State) : Host.Outcome State Fault Refusal :=
  .next (if isRunning s && s.time.lock == 1 && s.time.source == 3 && decide (s.time.lockedAt + 2000000000 ≤ s.time.now) then
      { s with time := { s.time with lock := 3, source := 3 } }
    else s)

/-- HOLDOVER (R321): every source is lost; the last rate is kept. -/
def execHoldover (s : State) : Host.Outcome State Fault Refusal :=
  .next (if isRunning s && s.time.source != 3 then
      { s with time := { s.time with lock := 2, source := 3, follow := none, ptp := none, slew := 0 } }
    else s)

/-! ### PTP (R410, Table 17-9) -/

/-- The port that hears the best master becomes the one slave port: lowest priority, class, grandmaster, steps, port. -/
def ptpAnnounce (s : State) (n : Nat) (f : PtpInfo) : State :=
  let t := (f.priority.toNat, f.clockClass.toNat, f.grandmaster.toNat, f.steps.toNat)
  let take : Bool := match s.time.ptp with
    | none => true
    | some (m, a, b, c, d) => m == n || tupleBefore (t.1, t.2.1, t.2.2.1, t.2.2.2, n) (a, b, c, d, m)
  if take then { s with time := { s.time with ptp := some (n, t.1, t.2.1, t.2.2.1, t.2.2.2) } } else s

/-- PTP_MESSAGE (R405, R410): on a port where PTP is not enabled it is discarded as any other frame; options not supported
are discarded. -/
def execPtpMessage (port : Nat) (k : PtpKind) (domain : Nat) (f : PtpInfo) (s : State) : Host.Outcome State Fault Refusal :=
  .next (match brgPort s (port - 128) with
    | some q =>
      if !isRunning s || decide (port < 128) || !q.up then s
      else if !ptpEn s (port - 128) then updBrg s (port - 128) fun q => { q with otherDiscards := q.otherDiscards + 1 }
      else if domain ≠ ptpDomain s ∨ k = .peerDelay ∨ k = .management ∨ k = .signaling then
        { s with time := { s.time with ptpDiscards := s.time.ptpDiscards + 1 } }
      else
        let slave : Bool := match s.time.ptp with
          | some p => p.1 == port
          | none => false
        match k with
        | .announce => ptpAnnounce s port f
        | .delayResp => if slave then takeSource s 0 f.offset else s
        | .delayReq => if slave then s else say s (.event 10 port)
        | _ => s
    | none => s)

/-! ### 1PPS (R316, R442) -/

/-- Fabric time that a rising 1PPS edge stands for: PTP's time of day if there is one, else `tod` and the edges after it, else
the nearest second. -/
def ppsTime (s : State) (tod : Nat) : Nat :=
  if tod ≠ 0 then tod
  else if timeTod s ≠ 0 then (match s.time.lastPps with
    | some t => t + 1000000000
    | none => timeTod s)
  else (s.time.now + 500000000) / 1000000000 * 1000000000

/-- PPS_IN (R442). -/
def execPpsIn (tod : Nat) (s : State) : Host.Outcome State Fault Refusal :=
  .next (if isRunning s then
      let t := ppsTime s tod
      takeSource { s with time := { s.time with lastPps := some t } } 1 ((s.time.now : Int) - t)
    else s)

/-- PPS_OUT (R316): a rising edge within 10 ns of a multiple of 10^9 ns, high for 1 ms. -/
def execPpsOut (s : State) : Host.Outcome State Fault Refusal :=
  .next (if s.boot.power != .off && s.time.ppsHigh.isNone
        && (decide (s.time.now % 1000000000 ≤ 10) || decide (s.time.now % 1000000000 ≥ 999999990)) then
      say { s with time := { s.time with ppsHigh := some (s.time.now + 1000000) } } (.pin 0 true)
    else s)

end Sys2Proof.Machine
end

