-- ==== Sys2Proof/Machine/Flex.lean ====
section
/-!
DEFINITION. Machine/Flex.lean: the device role of a flex port (R403, Table 17-4) and CXL IDE (R404). Flex port k is port
144 + k of a command.
-/

namespace Sys2Proof.Machine

/-- The GFA that an offset of the HDM range stands for; none outside the range. -/
def flexGfa (s : State) (k : Nat) (offset : Word) : Option Word :=
  if offset.toNat < flexLen s k * 2 ^ 21 then some (flexWin s k + offset) else none

/-- The epoch of the port's room that its agent has received last (R33). -/
def flexEpoch (s : State) (k : Nat) : Epoch :=
  if flexRoom s k = 0 then 0 else match flexPort s k with
    | some q => newerEpoch (currentEpoch s (flexRoom s k)) q.epoch
    | none => currentEpoch s (flexRoom s k)

/-- A packet of the port's agent: elastic class, room and epoch of the port's room. -/
def flexPacket (s : State) (k : Nat) (opcode : BitVec 8) (vc : BitVec 3) (ocls : BitVec 2) (dst : AgentId) (tag : Tag)
    (g w3 : Word) (data : List Byte) : Packet :=
  { mkPacket s opcode vc ocls 0b01 (flexRoom s k) dst tag g w3 data with src := flexAgent s k, epoch := flexEpoch s k }

/-- Two requests of a port in one flow (R75). -/
def sameFlexFlow (a b : FlexSent) : Bool := homeOf a.pkt.w2 == homeOf b.pkt.w2 && a.pkt.ocls == b.pkt.ocls

/-- A request of the port is outstanding and enters the switch. -/
def flexLaunch (s : State) (k : Nat) (x : FlexSent) : State :=
  ingress (updFlex s k fun q => { q with sent := q.sent ++ [x] }) (144 + k) x.pkt

/-- A new request of the port; while its flow is stopped, or earlier ones of it wait, it waits (R75). -/
def flexSend (s : State) (k : Nat) (host : Tag) (p : Packet) : State :=
  let x : FlexSent := { host := host, pkt := p }
  match flexPort s k with
  | none => s
  | some q =>
    if q.again.any (sameFlexFlow x) || q.sent.any (fun y => y.flushed && sameFlexFlow x y) then
      updFlex s k fun q => { q with again := q.again ++ [x] }
    else flexLaunch s k x

/-- Whether a flushed request at place `i` may go again: no earlier, unflushed request of its flow is outstanding (R75). -/
def flexMayGo (q : FlexPort) (x : FlexSent) : Bool :=
  x.flushed && !q.sent.zipIdx.any (fun y => !y.1.flushed && sameFlexFlow x y.1
    && q.sent.zipIdx.any (fun z => z.1.flushed && sameFlexFlow x z.1 && decide (y.2 < z.2)))

/-- Requests of a port go again: flushed ones in their order and unchanged, then those that wait (R35, R75). -/
def flexAgain (s : State) (k : Nat) : State :=
  match flexPort s k with
  | none => s
  | some q =>
    let go := q.sent.filter (flexMayGo q)
    let s := updFlex s k fun y => { y with sent := mapIf (flexMayGo q) (fun x => { x with flushed := false }) y.sent }
    let s := go.foldl (fun s x => ingress s (144 + k) x.pkt) s
    let s := updFlex s k fun y => { y with again := [] }
    q.again.foldl (fun s x => flexSend s k x.host x.pkt) s

/-- Word 3 of a request: byte count and generation (Table 4-1). -/
def flexWord3 (n : Nat) (gen : Gen) : Word := fieldOf 56 7 (n - 1) ||| fieldOf 48 4 gen.toNat

/-- The line of a request that goes on: the port is a device-role one whose link is up with IDE active and BI enabled, and the
line lies in its window; otherwise a read gets the error value and a write is acknowledged (R403). -/
def withFlex (s : State) (port : Nat) (offset : Word) (tag : Tag) (read : Bool) (f : State → Nat → Word → State) : State :=
  if port < 144 then s
  else match flexPort s (port - 144) with
    | none => s
    | some q =>
      if !isRunning s || !q.up || !q.ideActive || !flexDevice s (port - 144) then s
      else match q.biEnable, flexGfa s (port - 144) offset with
        | true, some g => f s (port - 144) (lineGfa (lineKey g))
        | _, _ => say s (.cxl (port - 144) tag read (if read then List.replicate 64 0xFF else []))

/-- CXL_MEMRD: LD, RD_S or RD_U of the line. -/
def execCxlMemrd (port : Nat) (offset : Word) (snp : CxlRead) (tag : Tag) (gen : Gen) (s : State) :
    Host.Outcome State Fault Refusal :=
  .next (withFlex s port offset tag true fun s k g =>
    let op : BitVec 8 := match snp with
      | .plain => 0x00
      | .shared => 0x02
      | .exclusive => 0x03
    pump (flexSend s k tag (flexPacket s k op vcReqR 0 0 tag g (flexWord3 64 gen) [])))

/-- Whether the directory records the line in U for the port: this home's own, or what another home granted. -/
def flexOwns (s : State) (k : Nat) (g : Word) : Bool :=
  if isHome s (homeOf g) then (match entryOf s (lineKey g) with
    | some e => e.st == .unique && e.ptrs.contains (flexAgent s k)
    | none => false)
  else (match flexPort s k with
    | some q => q.unique.contains (lineKey g)
    | none => false)

/-- CXL_MEMWR: WB of a line the port owns, ST of 64 B otherwise; a snoop of the line that is open now has its write. -/
def execCxlMemwr (port : Nat) (offset : Word) (data : List Byte) (tag : Tag) (gen : Gen) (s : State) :
    Host.Outcome State Fault Refusal :=
  .next (withFlex s port offset tag false fun s k g =>
    let line := lineKey g
    let owns := flexOwns s k g
    let s := updFlex s k fun q => { q with
      snoops := mapIf (fun (x : FlexSnoop) => lineKey x.gfa == line) (fun x => { x with written := true }) q.snoops
      unique := q.unique.filter (· != line) }
    let p := if owns then flexPacket s k 0x61 vcWb 0 0 tag g (flexWord3 64 gen) (data.take 64)
      else flexPacket s k 0x08 vcReqR 0 0 tag g (flexWord3 64 gen) (data.take 64)
    pump (flexSend s k tag p))

/-- Runs of enabled bytes, ascending: first byte and length. -/
def enabledRuns (en : Word) : List (Nat × Nat) :=
  (List.range 64).foldl (fun l i =>
    if en.getLsbD i then (match l.getLast? with
      | some r => if r.1 + r.2 = i then l.dropLast ++ [(r.1, r.2 + 1)] else l ++ [(i, 1)]
      | none => [(i, 1)])
    else l) []

/-- One store of a partial write. -/
def flexStore (k : Nat) (g : Word) (data : List Byte) (s : State) (r : (Nat × Nat) × Tag × Gen) : State :=
  flexSend s k r.2.1 (flexPacket s k 0x08 vcReqR 0b01 0 r.2.1 (g + BitVec.ofNat 64 r.1.1) (flexWord3 r.1.2 r.2.2)
    ((data.drop r.1.1).take r.1.2))

/-- CXL_MEMWRPTL: one ST in ordered class 0b01 for each run, the first under the write's tag, the rest each under a free one; the
write completes with its last store. -/
def execCxlMemwrptl (port : Nat) (offset : Word) (data : List Byte) (enables : Word) (tag : Tag) (gen : Gen) (s : State) :
    Host.Outcome State Fault Refusal :=
  .next (withFlex s port offset tag false fun s k g =>
    let runs := enabledRuns enables
    match flexPort s k with
    | none => s
    | some q =>
      if runs.isEmpty then say s (.cxl k tag false [])
      else
        let more := (freeFlexTags q (runs.length - 1)).map fun t => (t, nextFlexGen q t)
        let s := updFlex s k fun q => { q with
          partials := q.partials ++ [(tag, tag :: more.map (fun x => x.1))]
          gens := q.gens.filter (fun y => !more.any (fun x => x.1 == y.1)) ++ more }
        pump ((runs.zip ((tag, gen) :: more)).foldl (flexStore k g data) s))

/-- CXL_BIRSP: SR_WB after a write of the line, else SR_CLEAN or SR_NONE. -/
def execCxlBirsp (port : Nat) (shared : Bool) (tag : Tag) (offset : Word) (s : State) : Host.Outcome State Fault Refusal :=
  .next (if port < 144 then s
    else
      let k := port - 144
      match flexPort s k with
      | none => s
      | some q =>
        match q.snoops.find? (fun x => x.tag == tag && lineKey x.gfa == lineKey (flexWin s k + offset)) with
        | none => s
        | some x =>
          if !isRunning s || !q.up then s
          else
            let s := updFlex s k fun q => { q with snoops := q.snoops.filter (· != x) }
            let op : BitVec 8 := if x.written then 0x7B else if shared then 0x79 else 0x78
            let p := flexPacket s k op vcWb 0 x.home tag x.gfa 0 []
            pump (ingress s port { p with room := x.room, epoch := x.epoch, wcls := x.wcls }))

/-- BI_ENABLE (R403). -/
def execBiEnable (port : Nat) (s : State) : Host.Outcome State Fault Refusal :=
  .next (if port < 144 then s
    else match flexPort s (port - 144) with
      | some q => if isRunning s && q.up && flexDevice s (port - 144) then updFlex s (port - 144) fun q => { q with biEnable := true } else s
      | none => s)

/-! ### CXL IDE (R404) -/

/-- CXL_IDE_KM: inside an authenticated session keys are set, drawn here in root-port role and supplied by the host in device
role; once keys are set, IDE can become active. -/
def execCxlIdeKm (port : Nat) (authenticated : Bool) (key : BitVec 256) (activate : Bool) (s : State) :
    Host.Outcome State Fault Refusal :=
  .next (if port < 144 then s
    else
      let k := port - 144
      match flexPort s k with
      | none => s
      | some q =>
        if !isRunning s || !q.up || !authenticated then s
        else if activate then
          if q.keys.isEmpty then s
          else pump (routeUnrouted (noteRoutes (updFlex s k fun q => { q with ideActive := true, backoff := 10 })))
        else if flexDevice s k then updFlex s k fun q => { q with secured := true, keys := q.keys ++ [key] }
        else
          let (s, v) := draw s 256
          say (updFlex s k fun q => { q with secured := true, keys := q.keys ++ [BitVec.ofNat 256 v] }) (.event 11 port))

/-- IDE_TIMEOUT (R404): 100 ms after link-up IDE is not active. -/
def execIdeTimeout (port : Nat) (s : State) : Host.Outcome State Fault Refusal :=
  .next (if port < 144 then s
    else match flexPort s (port - 144) with
      | some q =>
        if isRunning s && q.up && !q.ideActive && decide (q.linkUpAt + 100000000 ≤ s.time.now) then
          let s := securityFault (flexDown s (port - 144)) port
          updFlex s (port - 144) fun q => { q with retryAt := some (s.time.now + q.backoff * 1000000), backoff := min 10000 (2 * q.backoff) }
        else s
      | none => s)

end Sys2Proof.Machine
end

