-- ==== Sys2Proof/Machine/Health.lean ====
section
/-!
DEFINITION. Machine/Health.lean: retirement of units (R16, R172, R226, R313, R364, R365), UNIT_RETIRE, HEALTH_CMD actions 0
and 1 (R361, R366), FAULT_READ and SCRUB.
-/

namespace Sys2Proof.Machine

/-! ### Clusters (R226) -/

/-- Clears a cluster from the slice of this switch. -/
def clearCluster (s : State) (c : Nat) (y : Slice) : Slice :=
  if y.switch = selfId s then { y with clusters := y.clusters &&& ~~~(BitVec.ofNat 144 (2 ^ c)) } else y

/-- A retired cluster leaves every room's bitmap (Table 15-8). -/
def clearBitmaps (s : State) (c : Nat) : State :=
  let f := clearCluster s c
  let rooms := s.rooms.rooms.map fun (x : Room) =>
    let commit := x.commit.map fun (y : Commit) => { y with slices := y.slices.map f }
    let waiting := x.waiting.map fun (y : Commit) => { y with slices := y.slices.map f }
    let staged := x.staged.map fun y => (f y.1, y.2)
    { x with cur := x.cur.map f, old := x.old.map f, staged := staged, commit := commit, waiting := waiting }
  parkClusters { s with rooms := { s.rooms with rooms := rooms } }

/-- Starts the cores of some clusters of a stage, as at the start of a run. -/
def startClusters (s : State) (id i : Nat) (g : Stage) (cs : List Nat) : State :=
  let cores := startCores { g with clusters := cs }
  let s := { s with engine := { s.engine with
    cores := s.engine.cores.filter (fun k => !cs.contains k.id.cluster) ++ cores
    stores := cores.foldl (fun m c => initStore m g c.id) s.engine.stores } }
  updStage s id i fun g => { g with doneCores := g.doneCores.filter (fun c => !cs.contains c.cluster) }

/-- How many records a core of a cluster sent for an input-0 record before the cluster was lost. -/
def sentFor (s : State) (c : Nat) (h : HeldRec) : Nat :=
  match s.engine.cores.find? (fun k => k.id.cluster == c && k.got && k.n == h.n && k.inK == h.k) with
  | some k => k.k
  | none => 0

/-- Records of inputs 1 to 3 that wait at a cluster, without repeats: input and record. -/
def sideRecords (v : Caravan) (i c : Nat) : List (Nat × Rec) :=
  ((v.queues.filter (fun q => q.stage == i && q.cluster == c && q.input != 0)).flatMap
    (fun q => q.recs.map (fun r => (q.input, r)))).eraseDups

/-- A run goes on without a cluster: what was dispatched to it runs again on the clusters `cs`, of which `new` joins the
stage now; labels that it has sent already are discarded. -/
def rerunStage (s : State) (v : Caravan) (r : Run) (i c : Nat) (g : Stage) (cs new : List Nat) : State :=
  let mine := r.held.filter (fun h => h.stage == i && h.cluster == c)
  let labels := mine.map (fun h => (i, h.n, sentFor s c h))
  let side := sideRecords v i c
  let old := s.engine.stores
  let s := { s with engine := { s.engine with
    cores := s.engine.cores.filter (fun k => k.id.cluster != c)
    lineBuf := s.engine.lineBuf.filter (fun b => b.1 != c) } }
  let run : Run := { r with
    held := r.held.filter (fun h => !(h.stage == i && h.cluster == c)), reruns := r.reruns ++ labels }
  let s := updCaravan s v.id fun v => { v with
    run := some run, queues := v.queues.filter (fun q => q.cluster != c), bufs := v.bufs.filter (fun b => b.cluster != c) }
  let g' : Stage := { g with clusters := cs, doneCores := g.doneCores.filter (fun k => k.cluster != c) }
  let s := updStage s v.id i fun _ => g'
  let targets := (mine.map (fun h => clusterFor g' h.n)).eraseDups
  let stopped := targets.filter (fun t => g.builtin.isNone && !new.contains t &&
    decide (g.usedCores ≤ (g'.doneCores.filter (fun k => k.cluster == t)).length))
  let s := if g.closed then s else startClusters s v.id i g' (new ++ stopped)
  let s := side.foldl (fun s x => new.foldl (fun s t =>
    let data := readBytes old ((c * 33 + 32) * 2 ^ 22 + handleAddr x.2.handle) (handleLen x.2.handle)
    storeRecord s v.id i x.1 t (max 1 g.usedCores) x.2.n x.2.k (handlePoison x.2.handle) data
      ((List.range (max 1 g.usedCores)).map some)) s) s
  let s := mine.foldl (fun s h => storeRecord s v.id i 0 (clusterFor g' h.n) 1 h.n h.k h.poison h.data [none]) s
  settleCaravan s v.id

/-- The stage that a retired cluster served goes on with the clusters that remain, or with a free one of the room; a run ends
with status 0x04 where there is none, or where its image is rerun-unsafe (R226). -/
def leaveStage (s : State) (c : Nat) : State :=
  match stageAt s c with
  | none => s
  | some (v, i) => match v.stages[i]? with
    | none => s
    | some g =>
      let left := g.clusters.filter (· != c)
      let new := if left.isEmpty then (freeClusters s v.room).take 1 else []
      match v.run with
      | none => updStage s v.id i fun g => { g with clusters := left ++ new }
      | some r =>
        if g.rerunUnsafe || (left ++ new).isEmpty then
          updStage (endRun s v.id (some 0x04)) v.id i fun g => { g with clusters := left ++ new }
        else rerunStage s v r i c g (left ++ new) new

/-- The same for the clusters of collective contexts: a chunk's state goes on at another cluster of the context. -/
def leaveContexts (s : State) (c : Nat) : State :=
  (s.coll.ctxs.filter (fun x => x.clusters.contains c)).foldl (fun s x =>
    let left := x.clusters.filter (· != c)
    let new := if left.isEmpty then (freeClusters s x.room).take 1 else []
    let upd := mapIf (fun (y : Context) => y.lead == x.lead && y.ctx == x.ctx) (fun y => { y with clusters := left ++ new })
    let s := { s with coll := { s.coll with ctxs := upd s.coll.ctxs } }
    if (left ++ new).isEmpty then (openRounds x).foldl (fun s r => endRound s x r.params.round 0x04) s else s) s

/-- The work of an ATTEND, ATTN_MERGE, GATHER or EMB_BAG goes on with the clusters that remain, or with a free one of the room; it ends with
status 0x04 where there is none (R226, R285). -/
def leaveWork (s : State) (c : Nat) : State :=
  let hit := s.ledger.entries.filter fun x => decide (0x60 ≤ descOp x.desc) && decide (descOp x.desc ≤ 0x63) && x.st != .mirroring
    && x.result.isNone && x.claims.contains c
  hit.foldl (fun s x =>
    let left := x.claims.filter (· != c)
    let new := if left.isEmpty then (freeClusters s (entryRoom x)).take 1 else []
    let s := updLedger s x.n fun x => { x with claims := left ++ new }
    if (left ++ new).isEmpty then finishStatus (startEntry s x.n) x.n 0x04 x.position.toNat 0 else s) s

/-! ### Other units (Table 15-8) -/

/-- The roles of a steward: its own, and those that it has taken (R16). -/
def rolesOf (h : Hlth) (i : Nat) : List Nat :=
  (if h.roles.getD i 0xF = 0xF then [] else [h.roles.getD i 0xF]) ++ ((h.taken.filter (fun x => x.1 == i)).map (fun x => x.2))

/-- One role of steward `i` moves by R16: the other steward of the role keeps it, or it goes to a steward of the health role on the
other die; stewards 0 to 7 are MD0's. DESIGN CHOICE: with no health steward left there, nobody has it, on which the manual is silent. -/
def moveRole (i : Nat) (h : Hlth) (role : Nat) : Hlth :=
  if (List.range 16).any (fun j => (rolesOf h j).contains role) then h
  else match (List.range 16).find? (fun j => (rolesOf h j).contains 6 && decide (j / 8 ≠ i / 8)) with
    | some j => { h with taken := h.taken ++ [(j, role)] }
    | none => h

/-- A steward retires: it has no role any more, and its roles move. -/
def moveRoles (h : Hlth) (i : Nat) : Hlth :=
  (rolesOf h i).foldl (moveRole i) { h with roles := h.roles.set i 0xF, taken := h.taken.filter (fun x => x.1 != i) }

/-- Filter work on a retired array that is not done ends with status 0x04. -/
def endArrayWork (s : State) (a : Nat) : State :=
  let hit := s.ledger.entries.filter fun x => x.st != .mirroring && x.result.isNone &&
    ((descOp x.desc == 0x71 && descField x.desc 28 1 == a) || (descOp x.desc == 0x72 && descField x.desc 36 1 == a))
  hit.foldl (fun s x => finishStatus (startEntry s x.n) x.n 0x04 x.position.toNat 0) s

/-- Automata without a full gang in service are unloaded, and their scans end with status 0x04 (R313). -/
def dropAutomata (s : State) : State :=
  let gone := s.filt.automata.filter (fun a => !hasReplica s a)
  let hit := gone.flatMap fun a => scansOf s a.room a.id
  let s := hit.foldl (fun s x => finishStatus (startEntry s x.n) x.n 0x04 x.position.toNat 0) s
  { s with filt := { s.filt with
    automata := s.filt.automata.filter (hasReplica s)
    groups := s.filt.groups.filter (fun g => !(List.range 8).all (fun k => isRetired s 0x08 (8 * g.1 + k))) } }

/-- A porter leaves the count: the move that it carried starts again with another (R161). -/
def dropPorter (s : State) (p : Nat) : State :=
  let hit := (movers s).filter fun m => m.porter == some p && (m.mig == .moving || m.mig == .closing)
  pump (hit.foldl (fun s m => endMove s m { m with mig := .booked, porter := none }) s)

/-- What the retirement of a unit does to the unit's work (Table 15-8). -/
def retireEffect (s : State) (code i : Nat) : State :=
  match code with
  | 0x01 => leaveWork (leaveContexts (leaveStage (clearBitmaps s i) i) i) i
  | 0x02 => ((List.range 128).filter (onFabPort s i)).foldl fabDown s
  | 0x03 => brgDown s (brgPortOf s i)
  | 0x04 => flexDown s (i / 4)
  | 0x05 => startEvacuation s (i / 8)
  | 0x06 => pump (lossOfMoves s (fun d => d.tier == 0 && d.unit == i))
  | 0x07 => endArrayWork { s with filt := { s.filt with tables := s.filt.tables.filter (fun t => t.array != i) } } i
  | 0x08 => dropAutomata s
  | 0x09 => dropPorter s i
  | 0x0A => { s with hlth := moveRoles s.hlth i }
  | _ => s

/-- Retires one unit: the list, the flash record of R416, the fault record, the effect, and the state Degraded. -/
def retireOne (s : State) (code i cause : Nat) : State :=
  let s := { s with
    hlth := { s.hlth with retired := s.hlth.retired ++ [(code, i)] }
    boot := { s.boot with retireRec := s.hlth.retired ++ [(code, i)] } }
  let s := addFault s { mkFault 0x08 1 cause with unitCode := code, unitIndex := i }
  degrade (retireEffect s code i)

/-- Retires a unit that is not retired yet; the third channel of a controller retires the controller. -/
def retireUnit (s : State) (code i cause : Nat) : State :=
  if isRetired s code i ∨ unitCount code ≤ i then s
  else
    let s := retireOne s code i cause
    if code = 0x05 ∧ retiredChannels s (i / 8) ≥ 3 ∧ isRetired s 0x06 (i / 8) = false then retireOne s 0x06 (i / 8) cause
    else s

/-- UNIT_RETIRE (R364): a code that Table 15-8 does not list stands for a core unit, whose failure is the switch's. -/
def execUnitRetire (code index cause : Nat) (s : State) : Host.Outcome State Fault Refusal :=
  .next (if s.boot.power != .running && s.boot.power != .setUp then s
    else if unitCount code = 0 then enterHealth s .failed
    else settleAll (retireUnit s code index cause))

/-! ### HEALTH_CMD (R361, R366) -/

/-- HEALTH_CMD with action 0 on an entry that runs. -/
def healthRetireRun (s : State) (en : Entry) : State :=
  if entryRoom en ≠ 0 then finishStatus s en.n 0x03 0 0
  else if descField en.desc 16 1 ≠ 0 then s
  else
    let code := descField en.desc 17 1
    let i := descField en.desc 18 2
    if isRetired s code i then finishDone s en.n 0 0 else finishDone (retireUnit s code i 2) en.n 1 0

/-- HEALTH_RETIRE_UNIT (R366). -/
def execHealthRetireUnit (e : Nat) (s : State) : Host.Outcome State Fault Refusal :=
  .next (settleAll (withEntry s e 0x90 healthRetireRun))

/-- HEALTH_CMD with action 1 on an entry that runs: new work is refused from here on; it is done once every other accepted
descriptor is. -/
def enterRetiringRun (s : State) (en : Entry) : State :=
  if entryRoom en ≠ 0 then finishStatus s en.n 0x03 0 0
  else if descField en.desc 16 1 ≠ 1 then s
  else
    let s := enterHealth s .retiring
    if s.ledger.entries.any (fun x => x.n != en.n && !x.recorded) then s else finishDone s en.n 1 0

/-- HEALTH_ENTER_RETIRING (R361). -/
def execHealthEnterRetiring (e : Nat) (s : State) : Host.Outcome State Fault Refusal :=
  .next (withEntry s e 0x90 enterRetiringRun)

/-! ### FAULT_READ (R366, R368) -/

/-- How far a FAULT_READ has come: records copied, and the worst status of its writes. -/
structure CopyRun where
  done : Nat := 0
  status : Stat := 0
  deriving DecidableEq, Repr

/-- Position in the log of the first record to copy: that of the serial asked for, or the oldest held if it is older. -/
def firstHeld (s : State) (serial : BitVec 32) : Nat :=
  match s.hlth.log with
  | [] => 0
  | r :: _ => if seqBefore serial r.serial then 0 else (serial - r.serial).toNat

/-- Copies record `i` to its place at the destination. -/
def copyRecord (en : Entry) (p : State × CopyRun) (r : FaultRec × Nat) : State × CopyRun :=
  let data := leBytes 64 (faultBits p.1 r.1)
  let at_ := descWord en.desc 32 + BitVec.ofNat 64 (64 * r.2)
  if en.mgmt then (say p.1 (.hostWrite en.fn at_ data), { p.2 with done := p.2.done + 1 })
  else
    let (s, w) := ownWrite p.1 en.n (entryRoom en) at_ data
    (s, { done := p.2.done + (if w = 0x00 then 1 else 0), status := worse p.2.status (if w = 0x05 then 0x01 else w) })

/-- FAULT_READ on an entry that runs. -/
def faultReadRun (s : State) (en : Entry) : State :=
  if entryRoom en ≠ 0 then finishStatus s en.n 0x03 0 0
  else
    let recs := (s.hlth.log.drop (firstHeld s (BitVec.ofNat 32 (descField en.desc 16 8)))).take (descField en.desc 24 4)
    let oldest := match s.hlth.log with
      | r :: _ => r.serial
      | [] => s.hlth.serial
    let (s, r) := recs.zipIdx.foldl (copyRecord en) (s, {})
    finishBy s en.n r.status r.done oldest.toNat

/-- FAULT_READ (R366). -/
def execFaultRead (e : Nat) (_ : Cells) (s : State) : Host.Outcome State Fault Refusal := .next (withEntry s e 0x91 faultReadRun)

/-! ### SCRUB (R182, R191, R366) -/

/-- SCRUB on an entry that runs: the stored units of its next tile, head and retained, are read (R36). Its items are bytes; an extent
that is not bound, or of another room, is skipped. -/
def scrubRun (upsets : List Upset) (s : State) (en : Entry) : State :=
  let g := descWord en.desc 16
  let n := descField en.desc 24 4
  let all := (List.range n).map (fun i => extKey g + i)
  let rooms := all.filterMap (fun k => (extentOf s k).map (fun x => x.room))
  if !isHome s (homeOf g) || (entryRoom en != 0 && !rooms.contains (entryRoom en)) then finishStatus s en.n 0x03 0 0
  else
    let s := upsets.foldl addUpset s
    let at_ := nextItem en
    let close := fun (s : State) (st : Stat) (next c p : Nat) =>
      closeChunk s en.n st next next next (10000 * next / max 1 (n * 2 ^ 21)) [c, p] (decide (n * 2 ^ 21 ≤ next)) c p
    let mine : Option Extent := (extentOf s (extKey g + at_ / 2 ^ 21)).filter fun x => entryRoom en == 0 || x.room == entryRoom en
    match mine with
    | none => close s (tallyStatus en) ((at_ / 2 ^ 21 + 1) * 2 ^ 21) (tallyAt en 0) (tallyAt en 1)
    | some x =>
      if x.st == .draining then close s 0x06 at_ (tallyAt en 0) (tallyAt en 1)
      else
        let tile := extKey g * 32 + at_ / 65536
        let (s, c, p) := checkUnits s (upsetUnits s (fun u => u.tile == tile))
        close s (tallyStatus en) (at_ + 65536) (tallyAt en 0 + c) (tallyAt en 1 + p)

/-- SCRUB (R366): what struck stored units of tiles, and of retained tiles, comes with it. -/
def execScrub (e : Nat) (upsets kept : List Upset) (s : State) : Host.Outcome State Fault Refusal :=
  .next (withEntry s e 0x92 (scrubRun (upsets ++ kept)))

/-- A unit of tier 0. -/
def inTier0 (s : State) (u : StoredUnit) : Bool :=
  match contentsOf s u.cut u.tile with
  | some c => c.res.tier == 0
  | none => false

/-- TIER0_DAILY_SCRUB (R366): all of tier 0. -/
def execTier0DailyScrub (upsets kept : List Upset) (s : State) : Host.Outcome State Fault Refusal :=
  .next (if isRunning s then
      let s := (upsets ++ kept).foldl addUpset s
      (checkUnits s (upsetUnits s (inTier0 s))).1
    else s)

end Sys2Proof.Machine
end

