-- ==== Sys2Proof/Machine/Power.lean ====
section
/-!
DEFINITION. Machine/Power.lean: the power cap, measured power, energy handed out, and heat (R330 to R339).
-/

namespace Sys2Proof.Machine

/-- POWER_CAP on an entry that runs: cap and effective cap change at one instant (R334). -/
def powerCapRun (s : State) (en : Entry) : State :=
  if entryRoom en ≠ 0 then finishStatus s en.n 0x03 0 0
  else
    let cap := clampCap s (descField en.desc 16 2)
    let s := clampLate s en.n 16 2 cap
    let s := { s with innk := { s.innk with capSw := cap } }
    finishDone s en.n cap (effectiveCap s / 1000)

/-- POWER_CAP (R333). -/
def execPowerCap (e : Nat) (s : State) : Host.Outcome State Fault Refusal := .next (withEntry s e 0xA0 powerCapRun)

/-- A rail's power divided among the dies that it feeds, in proportion to their booked power on it, evenly where none is booked. -/
def splitRail (mw : Nat) (booked : List Nat) : List Nat :=
  booked.map fun x => if booked.sum = 0 then mw / booked.length else mw * x / booked.sum

/-- Booked power of a memory-side die's HBM traffic, in mW. -/
def bookedHbm (s : State) (die : Nat) : Nat :=
  ((List.range 16).map fun c => if 4 + c / 8 = die then rateMw (bookedAt s (.hbm c) s.time.now) 112 else 0).sum

/-- P_measured of each die (R337) from the power of the rails in the order of Table 18-1: VPP_HBM, VDD_HBM, VDDQ_HBM, VDD_AUX, VDD_MD,
VDD_ID, VDD_CAR, VDD_PHY. The HBM rails count to the memory-side dies, VDD_PHY to the I/O dies, whose lanes it feeds, VDD_AUX to none. -/
def railShares (s : State) (rails : List Nat) : List Nat :=
  let r := fun (k : Nat) => rails.getD k 0
  let heat := fun (d : Nat) => bookedAt s (.heat d) s.time.now
  let md := splitRail (r 4) [heat 4 - bookedHbm s 4, heat 5 - bookedHbm s 5]
  let hbm := splitRail (r 0 + r 1 + r 2) [bookedHbm s 4, bookedHbm s 5]
  splitRail (r 6) ((List.range 4).map heat) ++ List.zipWith (· + ·) md hbm ++ splitRail (r 5 + r 7) [heat 6, heat 7]

/-- FIXED_POWER_SAMPLE (R330, R337): fixed power, which the rail monitors measure, with the rails' power and the hottest reading of each
die as they stand then. The samples of the last 1 ms are kept. -/
def execFixedPowerSample (p : PowerSample) (s : State) : Host.Outcome State Fault Refusal :=
  .next (if isRunning s then
      let draws := (p.rails.sum :: s.innk.draws).take 1000
      { s with innk := { s.innk with
        samples := (p.mw :: s.innk.samples).take 1000, draws := draws, drawMw := draws.sum / draws.length, drawAt := s.time.now
        temps := (List.range 8).map (fun d => p.temps.getD d (s.innk.temps.getD d 0)), dieMw := railShares s p.rails } }
    else s)

/-! ### Energy handed out (R335, R336) -/

/-- The room whose power share a move without a descriptor is charged to: room 0x00 for an evacuation, else the tile's room, whose
automatic move it is (R158, R172). -/
def moveRoom (s : State) (m : Mover) : RoomId :=
  if m.res.tier == 0 && s.maps.evac.any (fun x => x.1 == m.res.unit) then 0 else tileRoom s m.key

/-- Rooms with work of a class that has started and is not done; moves without a descriptor are elastic work. -/
def roomsAtWork (s : State) (cls : Nat) : List RoomId :=
  let own := if cls = 1 then ((movers s).filter (fun m => m.work.isNone && m.mig != .settled)).map (moveRoom s) else []
  ((s.ledger.entries.filter (fun x => x.started && x.result.isNone && descClass x.desc == cls)).map entryRoom ++ own).eraseDups

/-- Divides an amount among rooms in proportion to their power shares. -/
def divideShares (s : State) (mw : Nat) (rooms : List RoomId) : List (RoomId × Nat) :=
  let all := (rooms.map (roomShare s)).sum
  rooms.map fun r => (r, if all = 0 then 0 else mw * roomShare s r / all)

/-- Adds up what each room is given. -/
def addGiven (l : List (RoomId × Nat)) : List (RoomId × Nat) :=
  ((l.map (fun x => x.1)).eraseDups).map fun r => (r, ((l.filter (fun x => x.1 == r)).map (fun x => x.2)).sum)

/-- The clock of a cluster for the next bucket: as booked, or raised in 25 MHz steps, by as many as the energy given allows, where its
room has been given energy, or early guaranteed work has, and its die is not hot (R11, R336, R338). -/
def bucketClock (s : State) (n early : Nat) (given : List (RoomId × Nat)) (c : Nat) : Nat :=
  let base := bookedClock s c
  let top := if s.fuses.a20 then 2000 else 2400
  let guaranteed : Bool := s.engine.booked.any fun x => x.1 == c && (match ledgerEntry s x.2.2 with
    | some en => descClass en.desc == 0
    | none => false)
  let energised : Bool := (decide (0 < early) && guaranteed) || (match clusterRoom s c with
    | some r => given.any (fun x => x.1 == r && decide (0 < x.2))
    | none => false)
  if energised && !s.innk.hot.contains (c / 36) && !clusterGated s c then min top (base + 25 * Config.takes n (300 + c)) else base

/-- BUCKET_TICK (R336): what is unbooked and unused goes to early guaranteed work, then to elastic work above its floor, then
to best-effort work; nothing is handed out while booked work alone draws more than the cap (R335). -/
def execBucketTick (unusedMw : Nat) (s : State) : Host.Outcome State Fault Refusal :=
  .next (if !isRunning s then s
    else
      let left := if s.innk.drawMw > effectiveCap s ∧ s.time.now < s.innk.drawAt + 1000000 then 0
        else effectiveCap s - fixedForecast s - energyAt s s.time.now + unusedMw
      let n := s.freeCount
      let early := if (roomsAtWork s 0).isEmpty then 0 else min left (Config.takes n 0)
      let elastic := (divideShares s (left - early) (roomsAtWork s 1)).map fun x => (x.1, min x.2 (Config.takes n (1 + x.1.toNat)))
      let rest := left - early - (elastic.map (fun x => x.2)).sum
      let effort := divideShares s rest (roomsAtWork s 2)
      let given := addGiven (elastic ++ effort)
      let clocks := (List.range 144).map fun c => (c, bucketClock s n early given c)
      drawn (setClocks { s with innk := { s.innk with given := given } } clocks))

/-- CAP_OVERRUN (R335). -/
def execCapOverrun (watts : Nat) (s : State) : Host.Outcome State Fault Refusal :=
  .next (if isRunning s && decide (watts * 1000 > effectiveCap s) then
      let s := { s with innk := { s.innk with
        drawMw := watts * 1000, drawAt := s.time.now, given := [], capOverruns := s.innk.capOverruns + 1 } }
      addFault s (mkFault 0x06 1 (watts % 2 ^ 32 + effectiveCap s / 1000 * 2 ^ 32))
    else s)

/-! ### Heat (R337 to R339) -/

/-- THERMAL_CONDITION (R338): a sensor of a die reads 105 C or more, in units of 0.25 C. -/
def execThermalCondition (die reading : Nat) (s : State) : Host.Outcome State Fault Refusal :=
  .next (if isRunning s && decide (die < 8) && decide (reading ≥ 420) then
      let s := { s with innk := { s.innk with temps := s.innk.temps.set die reading } }
      if s.innk.hot.contains die then s
      else
        let s := { s with innk := { s.innk with hot := s.innk.hot ++ [die], hotEntries := s.innk.hotEntries + 1 } }
        addFault s (mkFault 0x07 1 (reading % 2 ^ 16 + die * 2 ^ 16))
    else s)

/-- THERMAL_CONDITION_END (R338): every sensor of the die reads below 104 C. -/
def execThermalConditionEnd (die reading : Nat) (s : State) : Host.Outcome State Fault Refusal :=
  .next (if isRunning s && decide (die < 8) && decide (reading < 416) then
      { s with innk := { s.innk with temps := s.innk.temps.set die reading, hot := s.innk.hot.filter (· != die) } }
    else s)

/-- Every clock and lane stops, and REPLACE_REQ_N is driven low; nothing can be recorded any more (R339, R363, R415). -/
def stopClocks (s : State) : State :=
  let s := { s with
    fab := { s.fab with
      ports := s.fab.ports.map (fun q => { q with up := false })
      brg := s.fab.brg.map (fun q => { q with up := false })
      flex := s.fab.flex.map (fun q => { q with up := false }) }
    hlth := { s.hlth with state := .failed, replace := true }
    boot := { s.boot with power := .off } }
  say s (.pin 1 true)

/-- THERMAL_TRIP (R339). -/
def execThermalTrip (die : Nat) (s : State) : Host.Outcome State Fault Refusal :=
  .next (if decide (die < 8) && s.boot.power != .off then stopClocks s else s)

end Sys2Proof.Machine
end

