-- ==== Sys2Proof/Machine/Management.lean ====
section
/-!
DEFINITION. Machine/Management.lean: attestation (R394 to R396), the MCTP commands of Korroth (R411, R412) and the test
access port (R413).
-/

namespace Sys2Proof.Machine

/-- Firmware runs, so attestation and management requests are answered: from step 6 of a cold start on. -/
def firmwareRuns (s : State) : Bool :=
  (s.boot.power == .setUp || s.boot.power == .running || s.boot.power == .failed) && decide (6 ≤ s.boot.stage)

/-! ### SPDM (R395, Tables 16-9, 16-10) -/

/-- The device code and the silicon revision, which every attestation response reports (R2). -/
def devicePart (s : State) : List Byte := [if s.fuses.a20 then 0x20 else 0x24, 0xA1]

/-- The values of the measurement blocks 1 to 5. -/
def measurementBlocks (s : State) : List (List Byte) :=
  let m := s.boot.measure
  [hashBytes Config.romHash, hashBytes m.m2,
   [BitVec.ofNat 8 m.svn, BitVec.ofNat 8 s.fuses.minSvn, BitVec.ofNat 8 m.slot],
   hashBytes m.m3,
   devicePart s ++ leBytes 2 (selfId s).toNat ++ hashBytes m.e3]

/-- The chain of slot 0: Korroth root, DevID, alias. -/
def slotChain (s : State) : List Byte :=
  Config.certChain (devidSeed s) s.boot.measure.aliasSeed s.boot.measure.m2 s.boot.measure.svn

/-- SPDM error codes that occur (DMTF DSP0274): InvalidRequest, Busy, UnsupportedRequest. -/
def spdmInvalid : List Byte := [0x01, 0]
def spdmBusy : List Byte := [0x03, 0]
def spdmUnsupported : List Byte := [0x07, 0]

/-- What a response says. A CHALLENGE answer, which names chain and part, and measurements are signed by the alias key over the nonce and the values. -/
def spdmBody (s : State) (k : SpdmKind) (nonce : BitVec 256) (slot : Nat) : List Byte × Bool :=
  let sign := fun (l : List Byte) => (l ++ leBytes 3309 (aliasSign s (leBytes 32 nonce.toNat ++ l)).toNat, true)
  match k with
  | .getVersion => ([0x12, 0x13], false)
  | .getCapabilities => (leBytes 4 0x36, false)
  | .negotiateAlgorithms => ([0x04] ++ leBytes 2 0x0041, false)
  | .getDigests => (hashBytes (Config.sha3 (slotChain s)), false)
  | .getCertificate => if slot = 0 then (slotChain s, false) else (spdmInvalid, false)
  | .challenge => if slot = 0 then sign (hashBytes (Config.sha3 (slotChain s)) ++ devicePart s) else (spdmInvalid, false)
  | .getMeasurements => if slot = 0 then sign (measurementBlocks s).flatten else (spdmInvalid, false)
  | .other => (spdmUnsupported, false)

/-- Requests queued now: the switch answers 20,000 each second. -/
def spdmQueue (s : State) : Nat := (s.mgmt.spdmFree - s.time.now + 49999) / 50000

/-- One request of the responder: ERROR Busy above 256 queued, otherwise queued and answered. -/
def spdmAnswer (s : State) (k : SpdmKind) (nonce : BitVec 256) (slot : Nat) : State × List Byte × Bool :=
  if spdmQueue s ≥ 256 then (s, spdmBusy, false)
  else
    let (l, signed) := spdmBody s k nonce slot
    ({ s with mgmt := { s.mgmt with
        spdmFree := max s.mgmt.spdmFree s.time.now + 50000
        signed := s.mgmt.signed + (if signed then 1 else 0) } }, l, signed)

/-- A request over MCTP: transport 0 I3C, 1 the management port. -/
def spdmRequest (s : State) (q : SpdmReq) (k : SpdmKind) : State :=
  if !firmwareRuns s || decide (q.transport > 1) || (q.transport == 1 && !s.mgmt.link) then s
  else
    let (s, l, signed) := spdmAnswer s k q.nonce q.slot
    say s (.spdm q.transport k signed l)

/-- GET_VERSION (R395). -/
def execGetVersion (q : SpdmReq) (s : State) : Host.Outcome State Fault Refusal := .next (spdmRequest s q .getVersion)

/-- GET_CAPABILITIES (R395). -/
def execGetCapabilities (q : SpdmReq) (s : State) : Host.Outcome State Fault Refusal := .next (spdmRequest s q .getCapabilities)

/-- NEGOTIATE_ALGORITHMS (R395). -/
def execNegotiateAlgorithms (q : SpdmReq) (s : State) : Host.Outcome State Fault Refusal :=
  .next (spdmRequest s q .negotiateAlgorithms)

/-- GET_DIGESTS (R395). -/
def execGetDigests (q : SpdmReq) (s : State) : Host.Outcome State Fault Refusal := .next (spdmRequest s q .getDigests)

/-- GET_CERTIFICATE (R395). -/
def execGetCertificate (q : SpdmReq) (s : State) : Host.Outcome State Fault Refusal := .next (spdmRequest s q .getCertificate)

/-- CHALLENGE (R395). -/
def execChallenge (q : SpdmReq) (s : State) : Host.Outcome State Fault Refusal := .next (spdmRequest s q .challenge)

/-- GET_MEASUREMENTS (R395). -/
def execGetMeasurements (q : SpdmReq) (s : State) : Host.Outcome State Fault Refusal := .next (spdmRequest s q .getMeasurements)

/-- ATT_REQ (R396): one connection in one packet; each response is preceded by its length, and the whole goes back to the
asker in packets of at most 4,096 B. -/
def execAttReq (src : AgentId) (requests : List SpdmKind) (nonce : BitVec 256) (s : State) : Host.Outcome State Fault Refusal :=
  .next (if isRunning s then
      let s := { s with fab := { s.fab with inbox := s.fab.inbox.eraseP (fun p => p.opcode == 0xC1 && p.src == src) } }
      let (s, l) := requests.foldl (fun (p : State × List Byte) k =>
        let (s, b, _) := spdmAnswer p.1 k nonce 0
        (s, p.2 ++ leBytes 2 b.length ++ b)) (s, ([] : List Byte))
      ((piecesOf 4096 (l.length / 4096 + 1) l).zipIdx).foldl (fun s f =>
        emit s (mkPacket s 0xC2 vcCtl 0 0 0 src 0 0 (BitVec.ofNat 64 f.2) f.1)) s
    else s)

/-! ### MCTP (R412, Table 17-11) -/

/-- SET_CAP (R412): the board management controller's value, clamped as POWER_CAP's. -/
def execSetCap (instanceId : Byte) (cap : Nat) (s : State) : Host.Outcome State Fault Refusal :=
  .next (if firmwareRuns s then
      let v := clampCap s cap
      let s := { s with innk := { s.innk with capBmc := v } }
      say s (.mctp 0x01 instanceId 0x00 (leBytes 2 v ++ leBytes 2 (effectiveCap s / 1000)))
    else s)

/-- GET_STATUS (R412). -/
def execGetStatus (instanceId : Byte) (s : State) : Host.Outcome State Fault Refusal :=
  .next (if firmwareRuns s then say s (.mctp 0x02 instanceId 0x00 (statusFields s)) else s)

/-- EVENT_ACK (R412): every event up to the serial is acknowledged. -/
def execEventAck (instanceId : Byte) (serial : BitVec 32) (s : State) : Host.Outcome State Fault Refusal :=
  .next (if firmwareRuns s then
      let s := { s with mgmt := { s.mgmt with events := s.mgmt.events.filter (fun r => seqBefore serial r.serial) } }
      say s (.mctp 0x03 instanceId 0x00 [])
    else s)

/-- EVENT_RESEND (R412): every event that waits is sent again, in serial order. -/
def execEventResend (s : State) : Host.Outcome State Fault Refusal :=
  .next (if firmwareRuns s then
      s.mgmt.events.foldl (fun s r => say s (.mctp 0x10 0 0 (leBytes 64 (faultBits s r)))) s
    else s)

/-! ### The test access port (R413, Table 17-12) -/

/-- Instructions that only test-hold accepts. -/
def tapRestricted : TapOp → Bool
  | .bypass => false
  | .idcode => false
  | .samplePreload => false
  | _ => true

/-- TAP_INSTRUCTION (R413). -/
def execTapInstruction (op : TapOp) (s : State) : Host.Outcome State Fault Refusal :=
  .next (if s.boot.power = .off then s
    else { s with boot := { s.boot with
      tap := if tapRestricted op && s.boot.power != .testHold then .bypass else op } })

/-- IDCODE (R413): revision A1, part 0x7400, the manufacturer code, and 1. -/
def idcode : BitVec 32 := 0x1#4 ++ 0x7400#16 ++ Config.jedecCode ++ 1#1

end Sys2Proof.Machine
end

