-- ==== Sys2Proof/Machine/Replay.lean ====
section
/-!
DEFINITION. Machine/Replay.lean: what a mirror image says (Tables 15-2, 15-4), the replay of R351 to R353 after a reset of the
switch itself, and the adoption of a lost partner's rings (R358, R360).
-/

namespace Sys2Proof.Machine

/-! ### Reading the image -/

/-- Bytes [byte, byte + len) of an image, little-endian. -/
def imgNat (v byte len : Nat) : Nat := v / 2 ^ (8 * byte) % 2 ^ (8 * len)

/-- A ring record (Table 15-4); none for a ring that is not set. -/
def decodeRing (v : BitVec 512) : Option Ring :=
  let f := imgNat v.toNat
  if f 0 2 ≥ 4096 then none
  else some {
    id := BitVec.ofNat 12 (f 0 2), enabled := f 2 1 % 2 == 1, fabric := f 2 1 / 2 % 2 == 1, room := BitVec.ofNat 8 (f 3 1)
    d := f 4 1, c := f 5 1, fn := f 6 1, dbase := BitVec.ofNat 64 (f 8 8), cbase := BitVec.ofNat 64 (f 16 8)
    h := BitVec.ofNat 32 (f 24 4), nw := BitVec.ofNat 32 (f 28 4), head := BitVec.ofNat 32 (f 32 4), dbObj := f 36 4
    notifyObj := if f 40 4 ≥ 2 ^ 31 then none else some (f 40 4)
    vector := f 44 2, pint := f 48 4, tail := BitVec.ofNat 32 (f 52 4) }

/-- What 128 B of the entry area hold. -/
inductive Held where
  | free
  /-- the CRC-32C fails, or the state byte is none of Table 15-2: taken as free, and counted (R351). -/
  | bad
  | entry (e : Entry)
  deriving DecidableEq, Repr

/-- The fields of an entry image (Table 15-2). -/
def entryFields (n v : Nat) : Entry :=
  let f := imgNat v
  { n := n, desc := BitVec.ofNat 512 (f 0 64), ring := BitVec.ofNat 12 (f 64 2), mgmt := f 64 2 / 2 ^ 15 == 1
    st := if f 66 1 = 3 then .resultHeld else if f 66 1 = 2 then .running else .accepted
    rerunStarted := f 67 1 / 2 % 2 == 1, epoch := BitVec.ofNat 16 (f 68 2), fn := f 70 1, tA := f 72 8, promise := f 80 8
    checkpoint := BitVec.ofNat 64 (f 88 8), progress := f 96 2, serial := BitVec.ofNat 32 (f 120 4)
    result := if f 66 1 = 3 then
        some { status := BitVec.ofNat 8 (f 98 1), byte5 := BitVec.ofNat 8 (f 99 1), progress := f 96 2
               r16 := BitVec.ofNat 64 (f 104 8), r24 := BitVec.ofNat 64 (f 112 8) }
      else none }

/-- A ledger entry image. The share of another lead's run names no ring, and goes with its context. -/
def decodeEntry (n : Nat) (v : BitVec 1024) : Held :=
  let w := v.toNat
  if imgNat w 66 1 = 0 then .free
  else if imgNat w 66 1 > 3 ∨ crc32c (leBytes 124 w) ≠ BitVec.ofNat 32 (imgNat w 124 4) then .bad
  else if imgNat w 64 2 = 0 then .free
  else .entry (entryFields n w)

/-- Entries of an image that name one of its rings. -/
def goodEntries (m : MirrorImage) (rings : List Ring) : List Entry :=
  m.entries.filterMap fun x => match decodeEntry x.1 x.2 with
    | .entry e => if rings.any (fun r => r.id == e.ring) then some e else none
    | _ => none

/-- Entry numbers taken as free (R351). -/
def freedEntries (m : MirrorImage) (rings : List Ring) : List Nat :=
  m.entries.filterMap fun x => match decodeEntry x.1 x.2 with
    | .entry e => if rings.any (fun r => r.id == e.ring) then none else some x.1
    | .bad => some x.1
    | .free => none

/-! ### Completion rings (R209, R351) -/

/-- Records read in the completion slots of a ring from n_w on whose phase bit matches their lap, with their number. -/
def lapRecords (m : MirrorImage) (r : Ring) : List (BitVec 32 × BitVec 256) :=
  m.records.filterMap fun x =>
    if x.1 = r.id.toNat ∧ x.2.1 < 2 ^ r.c then
      let n : BitVec 32 := r.nw + BitVec.ofNat 32 ((x.2.1 + 2 ^ r.c - r.nw.toNat % 2 ^ r.c) % 2 ^ r.c)
      if x.2.2.toNat / 2 ^ 47 % 2 = phaseBit n r.c then some (n, x.2.2) else none
    else none

/-- Sequences whose final record is among them. -/
def seenSeqs (l : List (BitVec 32 × BitVec 256)) : List (BitVec 32) :=
  l.filterMap fun x => if x.2.toNat / 2 ^ 32 % 2 ^ 8 = 0x07 then none else some (x.2.extractLsb' 0 32)

/-- The first number from `s` on that a list does not hold. -/
def firstNotIn (l : List (BitVec 32)) : Nat → BitVec 32 → BitVec 32
  | 0, s => s
  | k + 1, s => if l.contains s then firstNotIn l k (s + 1) else s

/-! ### Replay (R351 to R353) -/

/-- The counts of a takeover record. -/
structure Tally where
  confirmed : Nat := 0
  finalised : Nat := 0
  requeued : Nat := 0
  deriving DecidableEq, Repr

/-- The promise moves to t_R plus what was left of it at acceptance (R353). -/
def movedPromise (tR : Nat) (en : Entry) : Nat := if descClass en.desc = 2 then 0 else tR + (en.promise - en.tA)

/-- Books a replayed descriptor; where no plan fits it runs unbooked (R353). -/
def rebook (s : State) (en : Entry) : State :=
  let dm := demandOf s en.desc
  let room := entryRoom en
  let plan : Option Plan :=
    if dm.phases.isEmpty then none
    else if descClass en.desc = 0 then
      (if booksNothing (descOp en.desc) then none else searchGuaranteed s 5 room dm en.tA (some en.promise))
    else if descClass en.desc = 1 ∧ hasFloor (descOp en.desc) then searchFloor s 5 room dm en.tA
    else none
  match plan with
  | some p => bookPlan s en.n room (descClass en.desc == 1) p
  | none => s

/-- Puts an entry into the ledger and mirrors it. -/
def putEntry (s : State) (en : Entry) : State :=
  mirrorEntry { s with ledger := { s.ledger with entries := s.ledger.entries ++ [en] } } en.n true

/-- One entry of a ring: confirmed, finalised from the mirror, or requeued from its checkpoint. A COLL_RUN finds no open
context after a reset or a takeover (Table 15-5). -/
def replayEntry (tR : Nat) (seen : List (BitVec 32)) (p : State × Tally) (en : Entry) : State × Tally :=
  let en : Entry := { en with replayed := true, started := true, doneAt := tR, fetched := tR, progAt := tR }
  if seen.contains (descSeq en.desc) then (p.1, { p.2 with confirmed := p.2.confirmed + 1 })
  else if en.st = .resultHeld then (putEntry p.1 en, { p.2 with finalised := p.2.finalised + 1 })
  else if en.rerunStarted ∨ descOp en.desc = 0x49 then
    let f : Final := { status := 0x04, progress := en.progress, r16 := if en.rerunStarted then en.checkpoint else 0 }
    (putEntry p.1 { en with st := .running, result := some f }, { p.2 with finalised := p.2.finalised + 1 })
  else
    let en : Entry := { en with
      st := .accepted, started := false, position := en.checkpoint, promise := movedPromise tR en, tA := tR }
    (rebook (putEntry p.1 en) en, { p.2 with requeued := p.2.requeued + 1 })

/-- Entries of a ring in sequence order. -/
def insertSeq (e : Entry) : List Entry → List Entry
  | [] => [e]
  | x :: l => if seqBefore (descSeq e.desc) (descSeq x.desc) then e :: x :: l else x :: insertSeq e l

def inSequence (l : List Entry) : List Entry := l.foldl (fun a e => insertSeq e a) []

/-- The ring as fetch resumes: h, n_w and T of R351. -/
def resumedRing (r : Ring) (held : List (BitVec 32)) (recs : List (BitVec 32 × BitVec 256)) : Ring :=
  let l := held ++ seenSeqs recs
  let h := firstNotIn l (l.length + 1) r.h
  let nw := firstNotIn (recs.map (fun x => x.1)) (recs.length + 1) r.nw
  let t := if (r.tail - h).toNat ≤ 2 ^ r.d then r.tail else h
  { r with h := h, nw := nw, tail := t, nwMirrored := nw, tailMirrored := t }

/-- A ring's doorbell or notify object is bound again with the value zero (Table 18-5, Table 15-6); `old` are the objects bound
before the reset, which give its domain. -/
def bindRingObj (old : List SyncObj) (r : Ring) (s : State) (n : Nat) : State :=
  let dom : Byte := match old.find? (fun o => o.n == n) with
    | some o => o.domain
    | none => 0
  if (syncObjOf s n).isSome then s
  else { s with sync := { s.sync with objs := s.sync.objs ++ [{ n := n, room := r.room, domain := dom, value := 0 }] } }

def bindRingObjs (old : List SyncObj) (s : State) (r : Ring) : State :=
  if !r.fabric then s
  else match r.notifyObj with
    | some n => bindRingObj old r (bindRingObj old r s r.dbObj) n
    | none => bindRingObj old r s r.dbObj

/-- Replays one ring with its entries, and puts the ring in place. -/
def replayRing (tR : Nat) (m : MirrorImage) (old : List SyncObj) (p : State × Tally) (r : Ring) (es : List Entry) : State × Tally :=
  let recs := lapRecords m r
  let r' := resumedRing r (es.map (fun e => descSeq e.desc)) recs
  let s := bindRingObjs old p.1 r'
  let s := { s with ledger := { s.ledger with rings := s.ledger.rings.filter (fun x => x.id != r.id) ++ [r'] } }
  (inSequence es).foldl (replayEntry tR (seenSeqs recs)) (mirrorRing s r.id, p.2)

/-! ### Ring 0 (R195) -/

/-- Ring 0 as its registers set it, with the counters of its mirrored record if there is one; none while it has neither. -/
def adminRing (s : State) (old : Option Ring) : Option Ring :=
  let ctl := rwl s (ringBase + 0x10)
  let en := bitsAt ctl 63 1 == 1
  let start : BitVec 32 := BitVec.ofNat 32 (bitsAt ctl 0 32)
  let fresh : Ring := { id := 0, h := start, tail := start, tailMirrored := start }
  match old with
  | none => if en then some (setUp fresh en ctl) else none
  | some r => some (setUp r en ctl)
where
  setUp (r : Ring) (en : Bool) (ctl : Word) : Ring :=
    { r with
      enabled := en, fabric := false, room := 0, fn := 0, d := 6 + bitsAt ctl 56 4, c := 6 + bitsAt ctl 52 4
      dbase := rwl s ringBase, cbase := rwl s (ringBase + 8), pint := bitsAt ctl 32 20, vector := 0 }

/-! ### The switch's own replay (R423) -/

/-- GFA of an entry of the mirror that was read: at the twin if one is named, else in the ledger extent (Table 15-3). -/
def mirrorEntryGfa (s : State) (n : Nat) : Word :=
  (if twinPresent s then mirrorBase s else ledgerExtBase s) + BitVec.ofNat 64 (0x100000 + 128 * n)

/-- Replays the switch's own mirror: every ring, then a fault record for each entry taken as free. -/
def replayOwn (s : State) (m : MirrorImage) (old : List SyncObj) : State :=
  let tR := stamp s 18
  let seen := m.rings.filterMap decodeRing
  let rings := seen.filter (fun r => r.id != 0) ++ (adminRing s (seen.find? (fun r => r.id == 0))).toList
  let es := goodEntries m rings
  let (s, _) := rings.foldl (fun p r => replayRing tR m old p r (es.filter (fun e => e.ring == r.id))) (s, ({} : Tally))
  (freedEntries m rings).foldl (fun s n =>
    addFault s (mkFault 0x03 1 ((mirrorEntryGfa s n).toNat + Config.mirrorTier % 3 * 2 ^ 64))) s

/-! ### The partner's rings (R358, R360) -/

/-- An entry adopted from the lost partner takes the lowest number that is free here. -/
def adoptEntry (tR : Nat) (seen : List (BitVec 32)) (adopted : Bool) (p : State × Tally) (en : Entry) : State × Tally :=
  replayEntry tR seen p { en with n := freeEntry p.1, adopted := adopted }

/-- Adopts a fabric ring whose ID is free here, or the entries of a management function ring, whose completion slots cannot be
read. -/
def adoptRing (tR : Nat) (m : MirrorImage) (p : State × Tally) (r : Ring) (es : List Entry) : State × Tally :=
  if !r.fabric then (inSequence es).foldl (adoptEntry tR [] true) p
  else if (ringOf p.1 r.id).isSome then p
  else
    let recs := lapRecords m r
    let r' := resumedRing r (es.map (fun e => descSeq e.desc)) recs
    let s := bindRingObjs [] p.1 r'
    let s := { s with ledger := { s.ledger with rings := s.ledger.rings ++ [r'] } }
    (inSequence es).foldl (adoptEntry tR (seenSeqs recs) false) (mirrorRing s r.id, p.2)

/-- Adopts every ring of the partner's mirror: the counts, the number of entries taken as free, and t_R. -/
def adoptAll (s : State) (m : MirrorImage) : State × Tally × Nat × Nat :=
  let tR := stamp s 18
  let rings := m.rings.filterMap decodeRing
  let es := goodEntries m rings
  let (s, t) := rings.foldl (fun p r => adoptRing tR m p r (es.filter (fun e => e.ring == r.id))) (s, ({} : Tally))
  let keep := m.applied.filter (fun a => s.ledger.entries.any (fun e => e.replayed && e.ring == a.1 && descSeq e.desc == a.2.1))
  ({ s with ledger := { s.ledger with applied := s.ledger.applied ++ keep } }, t, (freedEntries m rings).length, tR)

end Sys2Proof.Machine
end

