-- ==== Sys2Proof/Machine/Twin.lean ====
section
/-!
DEFINITION. Machine/Twin.lean: the twin pair (R348, R354 to R359): heartbeat, witness, claim, stop and takeover, and
HEALTH_CMD action 2 (R366).
-/

namespace Sys2Proof.Machine

/-! ### Heartbeat, witness, claim, stop (R348, R355) -/

/-- The heartbeat has not advanced for T_take / 4 (R355). -/
def beatStale (s : State) : Bool := decide (s.twin.peerSeenAt + tTake s / 4 ≤ s.time.now)

/-- HEARTBEAT (R348): the fabric time goes into the header of the mirror in use. -/
def execHeartbeat (s : State) : Host.Outcome State Fault Refusal :=
  .next (if isRunning s then
      let s := refreshTarget { s with twin := { s.twin with ownBeat := s.time.now } }
      if s.ledger.target = 0 then s else mirrorWrite s 0 0 (headerImage s) 8 8
    else s)

/-- R355 rule 3: the switch stops and enters Failed. -/
def stopTwin (s : State) : State := enterHealth s .failed

/-- The witness object (R355). -/
def witnessGfa (s : State) : Word := rwl s (ledgBase + 8)

/-- Asks for a sync operation on the witness, unless one for the same end is outstanding or answered (R465). -/
def askWitness (s : State) (who : OwnFor) (op : Op) : State :=
  if awaits s who || s.own.got.any (fun y => y.who == who) then s else askOwn s who 517 op (witnessGfa s) 8 0 0 0

/-- What the witness held, if the operation is answered: none where it failed. -/
def witnessGot (s : State) (who : OwnFor) : Option (Option Word) :=
  (s.own.got.find? (fun y => y.who == who)).map fun y =>
    if y.status = 0x00 then some (BitVec.ofNat 64 (leVal (y.data.take 8))) else none

/-- A read of the witness completes: the switch stops where it holds its partner's ID (R355 rules 1 and 3). -/
def takeWitness (s : State) : State :=
  match witnessGot s .twin with
  | none => s
  | some none => dropGot s .twin
  | some (some w) =>
    let s := dropGot s .twin
    if w.toNat = (twinId s).toNat ∧ w ≠ 0 then stopTwin s else { s with twin := { s.twin with witnessAt := s.time.now } }

/-- A claim of the witness completes: the switch wins if it held 0 (R355 rule 2). -/
def takeClaim (s : State) : State :=
  match witnessGot s .claim with
  | none => s
  | some w =>
    let s := dropGot s .claim
    if w = some 0 ∧ s.twin.claimed.isNone then refreshTarget { s with twin := { s.twin with claimed := some s.time.now } } else s

/-- WITNESS_CHECK (R355): SYNC_LD of the witness; an answer that is there at once counts at once, another when it comes. -/
def execWitnessCheck (_ : Word) (s : State) : Host.Outcome State Fault Refusal :=
  .next (if isRunning s && twinPresent s && witnessPresent s then
      takeWitness (askWitness (seeBeat s) .twin (.sync .ld 0 0 0))
    else s)

/-- TWIN_CLAIM (R355): SYNC_CAS on the witness, compare 0, swap the own switch ID. -/
def execTwinClaim (_ : Word) (s : State) : Host.Outcome State Fault Refusal :=
  .next (if isRunning s && twinPresent s && witnessPresent s then
      let s := seeBeat s
      if s.twin.claimed.isSome || !beatStale s then s
      else takeClaim (askWitness s .claim (.sync .cas 0 (BitVec.ofNat 64 (selfId s).toNat) 0))
    else s)

/-- TWIN_STOP (R355): with a witness named, neither a fresh heartbeat nor a completed witness read for T_take / 4. -/
def execTwinStop (s : State) : Host.Outcome State Fault Refusal :=
  .next (if isRunning s && twinPresent s && witnessPresent s then
      let s := seeBeat s
      if beatStale s && decide (s.twin.witnessAt + tTake s / 4 ≤ s.time.now) then stopTwin s else s
    else s)

/-! ### Takeover (R357 to R359) -/

/-- Table 15-6 step 2: the state in the header of the lost switch's mirror becomes 2. -/
def markTaken (s : State) : State :=
  match partnerHeader s with
  | some g => poolWrite s (BitVec.ofNat 64 (g + 6)) [2]
  | none => s

/-- A tile of an adopted extent: Unrecalled, and lost in tier 0 or on a tray that is not attached here (R171, R359). -/
def adoptTile (s : State) (t : Nat × Nat × Nat × Bool × BitVec 16) : Tile :=
  let here : Bool := match trayOf s t.2.2.1 with
    | some y => y.present && !y.lost
    | none => false
  { key := t.1, res := { tier := t.2.1, unit := t.2.2.1, lineAddressed := t.2.2.2.1 }, e := t.2.2.2.2, unrecalled := true
    lost := t.2.1 == 0 || !here }

/-- An extent of the lost switch, with what its trays hold. -/
def adoptExt (s : State) (x : JournalExt) : State :=
  if (extentOf s x.key).isSome then s
  else
    let e : Extent := { key := x.key, room := x.room, domain := x.domain, survival := x.survival
                        lineAddressed := x.lineAddressed, pin := x.pin, revert := x.revert }
    let mem := x.cells.foldl (fun m c => writeBytes m c.1 [c.2]) s.pool.mem
    let marks := x.poisoned.foldl (fun m l => putMark l (some .poisoned) m) s.pool.marks
    { s with
      maps := { s.maps with exts := s.maps.exts ++ [e], tiles := s.maps.tiles ++ x.tiles.map (adoptTile s) }
      pool := { s.pool with mem := mem, marks := marks } }

/-- A sharing domain of the lost switch's journal that this switch does not know. -/
def adoptDomain (s : State) (d : RoomId × Byte × List AgentId) : State :=
  if (domainAgents s d.1 d.2.1).isEmpty then putDomain s d.1 d.2.1 d.2.2 else s

/-- A room of the lost switch that this switch does not know. -/
def adoptRoom (s : State) (m : EpochMap) : State :=
  if (roomOf s m.room).isSome then s
  else
    let s := { s with
      rooms := { s.rooms with
        rooms := s.rooms.rooms ++ [{ id := m.room, holder := selfId s, current := m.epoch, cur := m.slices }] }
      fab := { s.fab with
        routes := s.fab.routes ++ [{ room := m.room, epoch := m.epoch, paths := m.paths, twins := m.twins }] } }
    takeRules s m.room m.rules

/-- The survivor becomes map holder of the lost switch's rooms, and the maps are rebuilt (Table 15-6 step 3). -/
def adoptMaps (s : State) (m : MirrorImage) : State :=
  let t := twinId s
  let s := { s with rooms := { s.rooms with
    rooms := mapIf (fun (x : Room) => x.holder == t) (fun x => { x with holder := selfId s }) s.rooms.rooms } }
  let s := m.domains.foldl adoptDomain (m.rooms.foldl adoptRoom s)
  let s := m.exts.foldl adoptExt s
  let recs := m.recs.map fun x => ({ tile := x.1, epoch := x.2.1, recorded := x.2.2.1, entry := x.2.2.2 } : MapRec)
  let s := { s with maps := { s.maps with recs := s.maps.recs.filter (fun y => !recs.any (fun x => x.tile == y.tile)) ++ recs } }
  ((movers s).filter (fun m => m.mig == .disputed)).foldl disputeTile s

/-- Takeover of the partner. -/
def takeOver (s : State) (m : MirrorImage) : State :=
  let s := markTaken { s with twin := { s.twin with
    adopted := s.twin.adopted ++ [twinId s], claimed := some (s.twin.claimed.getD s.time.now) } }
  let s := adoptMaps (refreshTarget s) m
  let (s, n, freed, tR) := adoptAll s m
  let s := addFault s (mkFault 0x0A 1 ((twinId s).toNat + n.confirmed % 2 ^ 32 * 2 ^ 16 + n.finalised % 2 ^ 32 * 2 ^ 48
    + n.requeued % 2 ^ 32 * 2 ^ 80 + freed % 2 ^ 16 * 2 ^ 112 + tR % 2 ^ 64 * 2 ^ 128))
  settleAll (pump s)

/-- TAKEOVER (R358): at t_C + T_take / 2 the winner takes over. -/
def execTakeover (m : MirrorImage) (s : State) : Host.Outcome State Fault Refusal :=
  .next (match s.twin.claimed with
    | some tC =>
      if isRunning s && twinPresent s && !s.twin.adopted.contains (twinId s) && decide (tC + tTake s / 2 ≤ s.time.now) then
        takeOver s m
      else s
    | none => s)

/-! ### HEALTH_CMD action 2 (R366) -/

/-- The partner's header shows it live: state 0, and a heartbeat within T_take. -/
def headerLive (s : State) : Bool :=
  match partnerHeader s with
  | some g => leVal (readBytes s.pool.mem (g + 6) 1) == 0 && decide (s.time.now < partnerBeat s + tTake s)
  | none => false

/-- HEALTH_CMD with action 2 on an entry that runs; skipped with result 0 where R366 says so, where no twin is named, and where
the partner has been taken over already. -/
def healthTakeOverRun (m : MirrorImage) (s : State) (en : Entry) : State :=
  if entryRoom en ≠ 0 then finishStatus s en.n 0x03 0 0
  else if descField en.desc 16 1 ≠ 2 then s
  else
    let s := seeBeat s
    if !twinPresent s || s.twin.adopted.contains (twinId s) || !beatStale s || witnessPresent s || headerLive s then
      finishDone s en.n 0 0
    else finishDone (takeOver s m) en.n 1 0

/-- HEALTH_TAKE_OVER (R366). -/
def execHealthTakeOver (e : Nat) (m : MirrorImage) (s : State) : Host.Outcome State Fault Refusal :=
  .next (withEntry s e 0x90 (healthTakeOverRun m))

end Sys2Proof.Machine
end

