-- ==== Sys2Proof/Machine/Memory.lean ====
section
/-!
DEFINITION. Machine/Memory.lean: memory requests, coherence messages and the timers of the home and of the attachment
switch (chapters 4 and 5).
-/

namespace Sys2Proof.Machine

/-- LD (R114): served by the state table without recording a holder; `v` marks it volatile (R89). -/
def execLd (r : Req) (v : Bool) (s : State) : Host.Outcome State Fault Refusal := .next (settleAll (homeRequest s r (.ld v)))

/-- LD_SNAP (R143). -/
def execLdSnap (r : Req) (handle : BitVec 16) (s : State) : Host.Outcome State Fault Refusal :=
  .next (settleAll (homeRequest s r (.ldSnap handle)))

/-- RD_S (R114). -/
def execRdS (r : Req) (s : State) : Host.Outcome State Fault Refusal := .next (settleAll (homeRequest s r .rdS))

/-- RD_U (R114, R118). -/
def execRdU (r : Req) (s : State) : Host.Outcome State Fault Refusal := .next (settleAll (homeRequest s r .rdU))

/-- ST (R81, R114). -/
def execSt (r : Req) (data : List Byte) (s : State) : Host.Outcome State Fault Refusal :=
  .next (seeBeat (settleAll (homeRequest s r (.st data))))

/-- AMO (R81, R90, Table 4-4). -/
def execAmo (r : Req) (aop : BitVec 4) (operand : Word) (s : State) : Host.Outcome State Fault Refusal :=
  .next (settleAll (homeRequest s r (.amo aop operand)))

/-- CAS (R81, R90). -/
def execCas (r : Req) (compare swap : BitVec 128) (s : State) : Host.Outcome State Fault Refusal :=
  .next (settleAll (homeRequest s r (.cas compare swap)))

/-- A write of the mirror that was answered with another status than 0x00 is made again (R346). -/
def remake (s : State) (who : OwnFor) : State :=
  match who with
  | .mirror 0 _ => if s.ledger.target = 0 then s else mirrorHeader s
  | .mirror 1 i => mirrorRing s (BitVec.ofNat 12 i)
  | .mirror 2 e => if (ledgerEntry s e).isSome then mirrorEntry s e true else if s.ledger.target = 0 then s else mirrorRelease s e
  | .mirror 3 i => if s.ledger.target = 0 then s else mirrorWrite s 3 i ((s.ledger.journal.getD i 0).setWidth 1024) 0 64
  | .mirror _ i => mirrorSend s 4 i 0 (((piecesOf 128 32 (keyRecord s)).getD i []))
  | _ => s

/-- Takes the answers to writes of the mirror. -/
def settleMirror (s : State) : State :=
  let mine := fun (y : OwnGot) => match y.who with
    | .mirror _ _ => true
    | _ => false
  let bad := ((s.own.got.filter (fun y => mine y && y.status != 0x00)).map (fun y => y.who)).eraseDups
  bad.foldl remake { s with own := { s.own with got := s.own.got.filter (fun y => !mine y) } }

/-- What follows of itself once answers to the switch's own requests are there: caravan runs, fabric rings, collective rounds
and the witness. -/
def settleOwn (s : State) : State :=
  let s := ((s.engine.caravans.filter (fun v => v.run.isSome)).map (fun v => v.id)).foldl settleCaravan s
  settleAll (pump (settleColls (takeClaim (takeWitness (settleFetches (settleMirror s))))))

/-- MEMORY_RESPONSE (R100): a response reaches the attachment switch, or answers a request of the switch's own agent. -/
def execMemoryResponse (p : Packet) (s : State) : Host.Outcome State Fault Refusal :=
  .next (if !isRunning s then s
    else
      let s := takeInbox s p.opcode p.src p.tag
      if p.dst = selfAgent s then settleOwn (ownResponse s p) else attRespond s none p)

/-- COW_COPY_DONE (R140): the unwritten lines of a head tile have been copied. -/
def execCowCopyDone (tile : Word) (s : State) : Host.Outcome State Fault Refusal :=
  .next (updTile s (tileKey tile) fun t => { t with cow := false })

/-- UPG (R114, R122 C3). -/
def execUpg (r : Req) (s : State) : Host.Outcome State Fault Refusal := .next (settleAll (homeRequest s r .upg))

/-- WB (R114, R121, R126). -/
def execWb (r : Req) (data : List Byte) (s : State) : Host.Outcome State Fault Refusal := .next (settleAll (writeBack s r data))

/-- EVC (R114, R122 C2, R126). -/
def execEvc (r : Req) (s : State) : Host.Outcome State Fault Refusal := .next (settleAll (cleanEvict s r))

/-- LEASE (R123). -/
def execLease (agent : AgentId) (home : SwitchId) (s : State) : Host.Outcome State Fault Refusal :=
  .next (if isRunning s && isHome s home then renewLease (takeInbox s 0x63 agent 0) agent else s)

/-- SR_NONE (R111, R114). -/
def execSrNone (a : SnoopAnswer) (s : State) : Host.Outcome State Fault Refusal :=
  .next (settleAll (snoopAnswer s a 0x78 false none))

/-- SR_CLEAN (R111, R114): to SNP_SHR the owner keeps a shared copy. -/
def execSrClean (a : SnoopAnswer) (s : State) : Host.Outcome State Fault Refusal :=
  .next (settleAll (snoopAnswer s a 0x79 true none))

/-- SR_DATA (R111, R114): the data is written before the snoop completes. -/
def execSrData (a : SnoopAnswer) (data : List Byte) (s : State) : Host.Outcome State Fault Refusal :=
  .next (settleAll (snoopAnswer s a 0x7A true (some data)))

/-- SR_WB (R121): the data came with the write-back. -/
def execSrWb (a : SnoopAnswer) (s : State) : Host.Outcome State Fault Refusal :=
  .next (settleAll (snoopAnswer s a 0x7B false none))

/-- Whether an agent is that of a device-role flex port whose link is up: the port renews its lease (R403). -/
def flexRenews (s : State) (agent : AgentId) : Bool :=
  s.fab.flex.any fun q => q.up && q.ideActive && flexEn s q.id && flexDevice s q.id && flexAgent s q.id == agent

/-- LEASE_EXPIRY (R123, R124). -/
def execLeaseExpiry (agent : AgentId) (s : State) : Host.Outcome State Fault Refusal :=
  .next (if isRunning s && s.dir.leases.any (fun l => l.agent == agent && decide (l.until_ ≤ s.time.now))
    then (if flexRenews s agent then renewLease s agent else settleAll (loseAgent s agent)) else s)

/-- The latest send of a transaction's snoop to an agent (R124). -/
def snoopSentAt (t : Txn) (agent : AgentId) : Nat :=
  match t.uni.find? (fun x => x.1 == agent) with
  | some x => x.2
  | none => t.sentAt

/-- SNOOP_LOSS_TIMER (R124). -/
def execSnoopLossTimer (tag : Tag) (agent : AgentId) (s : State) : Host.Outcome State Fault Refusal :=
  .next (if isRunning s && s.dir.txns.any (fun t =>
      t.tag == tag && t.awaited.contains agent && decide (snoopSentAt t agent + tDead s ≤ s.time.now))
    then settleAll (loseAgent s agent) else s)

/-- ROUTE_LOSS_TIMER (R124). -/
def execRouteLossTimer (agent : AgentId) (s : State) : Host.Outcome State Fault Refusal :=
  .next (if isRunning s && !agentReachable s agent && s.fab.noRoute.any (fun x =>
      x.1 == agent && decide (x.2 + tDead s ≤ s.time.now))
    then
      let s := settleAll (loseAgent s agent)
      { s with fab := { s.fab with noRoute := s.fab.noRoute.filter (fun x => x.1 != agent) } }
    else s)

/-- PROMOTION (R119): the pending write of a line has reached A_age. -/
def execPromotion (gfa : Word) (s : State) : Host.Outcome State Fault Refusal :=
  .next (match txnOf s (lineKey gfa) with
    | some t =>
      let old : Bool := match t.cause with
        | some c => (match trackOf s c.1.agent c.1.tag with
          | some e => decide (e.arrived + ageNs s ≤ s.time.now)
          | none => false)
        | none => false
      if isPendingWrite s t && old then updEntry s (lineKey gfa) fun e => { e with promoted := true } else s
    | none => s)

/-- DEAD_TARGET_TIMER (R100): no response by t_a + T_dead - 250 ns; the entry closes with status 0x04. -/
def execDeadTargetTimer (agent : AgentId) (tag : Tag) (gen : Gen) (s : State) : Host.Outcome State Fault Refusal :=
  .next (match attOf s agent tag with
    | some e =>
      if e.gen == gen && decide (e.tA + tDead s - 250 ≤ s.time.now) then attachError (dropAtt s agent tag) e 0x04 else s
    | none => if agent = selfAgent s ∧ isRunning s = true then settleOwn (ownDead s tag gen) else s)

/-- REPLAY_WINDOW_END (R104). -/
def execReplayWindowEnd (agent : AgentId) (tag : Tag) (epoch : Epoch) (s : State) : Host.Outcome State Fault Refusal :=
  .next { s with dir := { s.dir with replay := s.dir.replay.filter fun e =>
    !(e.agent == agent && e.tag == tag && e.epoch == epoch && decide (e.until_ ≤ s.time.now)) } }

/-- TOKEN_RELEASE (R93). -/
def execTokenRelease (agent : AgentId) (room : RoomId) (s : State) : Host.Outcome State Fault Refusal :=
  .next (if isRunning s then releaseWaiting s agent room else s)

end Sys2Proof.Machine
end

