-- ==== Sys2Proof/Machine/Notices.lean ====
section
/-!
DEFINITION. Machine/Notices.lean: FLUSH_NOTICE at this switch (R74, R75) and TILE_RECALL (R359).
-/

namespace Sys2Proof.Machine

/-! ### What a flush notice makes this switch do -/

/-- A leaf sends its part of a chunk again, until the chunk is acknowledged (R267). -/
def resendPart (s : State) (c : Context) (tag : Tag) : State :=
  match c.round with
  | none => s
  | some r =>
    let due := r.leaf.filter fun x => x.sent && !x.acked && BitVec.ofNat 20 x.k == tag && chunkRoot c x.k != selfId s
    due.foldl (fun s x => sendPart s (ctxNow s c) x.k) s

/-- A root sends the kept result of a chunk again (R267). -/
def resendResult (s : State) (c : Context) (tag : Tag) : State :=
  (c.round.toList ++ c.past.toList).foldl (fun s r =>
    let due := r.root.filter fun x => x.complete && decide (s.time.now < x.until_) && BitVec.ofNat 20 x.k == tag
    due.foldl (fun s x => x.result.foldl (fun s y =>
      toMembers (toSwitches s c r 0x92 5 x.k y.1 y.2.1 x.poison y.2.2) c r x.k y.1 y.2.1 x.poison y.2.2) s) s) s

/-- The contexts that an entry may name: its home field is the lead, its epoch the room's. -/
def noticeContexts (s : State) (f : FlushEntry) : List Context :=
  s.coll.ctxs.filter fun c => c.lead == f.home && liveEpoch s c.room f.epoch

/-- A commit, or a query, of a move goes out again; the map holder answers a repeat alike (R162, R166). -/
def resendMap (s : State) (tag : Tag) (commit : Bool) : State :=
  let due := (movers s).filter fun m => m.tag == some tag && m.mig == (if commit then .committing else .disputed)
  due.foldl (fun s m => askMap s m) s

/-- One entry of a notice: a snoop is sent again, as is a flushed notice of this switch, on a path that is up; a request of the
switch's own agent stops its flow. -/
def noticeEntry (s : State) (f : FlushEntry) : State :=
  if f.opcode = 0x70 ∨ f.opcode = 0x71 ∨ f.opcode = 0x72 then resendSnoop s f.tag
  else if f.opcode = 0xC0 then
    match s.fab.notices.find? (fun x => x.2.tag == f.tag) with
    | some x => sendUp s x.2
    | none => s
  else if f.opcode.toNat < 0x38 ∨ (0x40 ≤ f.opcode.toNat ∧ f.opcode.toNat < 0x44) then noteFlushed s f.tag f.epoch
  else if f.opcode = 0x91 ∨ f.opcode = 0x93 then (noticeContexts s f).foldl (fun s c => resendPart s c f.tag) s
  else if f.opcode = 0x92 then (noticeContexts s f).foldl (fun s c => resendResult s c f.tag) s
  else if f.opcode = 0xF0 ∨ f.opcode = 0xF1 then resendMap s f.tag true
  else if f.opcode = 0xF2 ∨ f.opcode = 0xF3 then resendMap s f.tag false
  else s

/-- Takes the first delivered notice of a source. -/
def takeNotice (s : State) (src : AgentId) : State :=
  { s with fab := { s.fab with inbox := s.fab.inbox.eraseP (fun p => p.opcode == 0xC0 && p.src == src) } }

/-- FLUSH_NOTICE (R74, R75). -/
def execFlushNotice (src : AgentId) (entries : List FlushEntry) (s : State) : Host.Outcome State Fault Refusal :=
  .next (if isRunning s then reissueFlushed (entries.foldl noticeEntry (renewLease (takeNotice s src) src)) else s)

/-! ### TILE_RECALL (R359) -/

/-- TILE_RECALL: the 1,024 lines of an Unrecalled tile are snooped by the extent's group. -/
def execTileRecall (gfa : Word) (s : State) : Host.Outcome State Fault Refusal :=
  .next (if isRunning s then pump (startTileRecall s (tileKey gfa)) else s)

end Sys2Proof.Machine
end

