-- ==== Sys2Proof/Machine/Package.lean ====
section
/-!
DEFINITION. Machine/Package.lean: binding keys, sealed packages (R382 to R386), and Fraip images: their check and FW_UPDATE
(R387 to R393).
-/

namespace Sys2Proof.Machine

/-- Bytes [a, a + n) of a list. -/
def slice (l : List Byte) (a n : Nat) : List Byte := (l.drop a).take n

/-! ### BIND_KEYGEN (R382) -/

/-- The 4,941 B statement of Table 16-5. -/
def bindingStatement (s : State) (set gen : Nat) : List Byte :=
  let l := leBytes 2 0x000A ++ leBytes 2 (selfId s).toNat ++ leBytes 4 set ++ leBytes 4 gen ++ leBytes 4 0
    ++ hashBytes (devidHash s) ++ leBytes 1568 (Config.kemEk (bindSeed s set gen)).toNat
  l ++ leBytes 3309 (aliasSign s l).toNat

/-- Writes bytes where a descriptor of room 0x00 names them: a function's memory, or a GFA. -/
def writeOut (s : State) (en : Entry) (g : Word) (data : List Byte) : State × Stat :=
  if en.mgmt then (say s (.hostWrite en.fn g data), 0x00) else ownWrite s en.n (entryRoom en) g data

def bindKeygenRun (s : State) (en : Entry) : State :=
  if entryRoom en ≠ 0 then finishStatus s en.n 0x03 0 0
  else
    let l := bindingStatement s (descField en.desc 16 4) (descField en.desc 20 4)
    let (s, st) := writeOut s en (descWord en.desc 24) l
    finishBy s en.n st 4941 0

/-- BIND_KEYGEN (R382). -/
def execBindKeygen (e : Nat) (_ : Cells) (s : State) : Host.Outcome State Fault Refusal := .next (withEntry s e 0x80 bindKeygenRun)

/-! ### PKG_OPEN and PKG_CLOSE (R383 to R386) -/

/-- The header of a sealed package (Table 16-6). -/
structure PkgHead where
  m : Nat
  set : Nat
  gen : Nat
  tiles : Nat
  pkgId : BitVec 128
  deriving DecidableEq, Repr

def pkgHead (l : List Byte) : Option PkgHead :=
  if l.take 4 = [0x57, 0x50, 0x4B, 0x47] ∧ leAt l 4 2 = 1 ∧ 1 ≤ leAt l 6 1 ∧ leAt l 6 1 ≤ 64 ∧ leAt l 7 1 = 0
      ∧ (slice l 40 216).all (· == 0) then
    some { m := leAt l 6 1, set := leAt l 8 4, gen := leAt l 12 4, tiles := leAt l 16 8, pkgId := BitVec.ofNat 128 (leAt l 24 16) }
  else none

/-- K_c, if this switch is a member and the wrap opens: `l` is the package up to its member entries' end. -/
def unwrapKey (s : State) (h : PkgHead) (l : List Byte) : Option (BitVec 256) :=
  match (List.range h.m).find? (fun i => slice l (2304 + 1664 * i) 48 == hashBytes (devidHash s)) with
  | none => none
  | some i =>
    let at_ := 2304 + 1664 * i
    let ss := Config.kemDecaps (bindSeed s h.set h.gen) (BitVec.ofNat 12544 (leAt l (at_ + 48) 1568))
    let wk : BitVec 256 := kmac 256 ss.toNat (hashBytes (Config.sha3 (l.take 256))) .wrap
    Config.gcmUnwrap wk (devidHash s) (BitVec.ofNat 384 (leAt l (at_ + 1616) 48))

/-- The owner's signature over everything before it. -/
def ownerSigned (h : PkgHead) (l : List Byte) : Bool :=
  let n := 2304 + 1664 * h.m
  Config.mldsaOk (BitVec.ofNat 15616 (leAt l 256 1952)) (l.take n) (BitVec.ofNat 26472 (leAt l n 3309))

/-- The extents that a PKG_OPEN names: enough for its tiles from the first destination on. -/
def pkgExtents (h : PkgHead) (dest : Word) : List Nat := (List.range ((h.tiles + 31) / 32)).map fun i => extKey dest + i

/-- An extent that tiles may be placed in: of this home, bound, of the room, tile-compressed, its tiles not in tier 0. -/
def pkgSuits (s : State) (room : RoomId) (k : Nat) : Bool :=
  isHome s (BitVec.ofNat 16 (k / 2 ^ 27)) && (match extentOf s k with
    | some x => x.st == .bound && !x.lineAddressed && (room == 0 || x.room == room)
        && s.maps.tiles.all (fun t => t.key / 32 != k || t.res.tier != 0)
    | none => false)

/-- Places tile `i` from its image: 1 more poisoned if that fails; none while the image is not read. -/
def placeTile (s : State) (dest : Word) (kc : BitVec 256) (pkgId : BitVec 128) (bad i : Nat) (got : Got) : State × Nat :=
  let tile := tileKey dest + i
  let ok := got.status == 0x00 && leAt got.bytes 0 2 == 0x0003 && leAt got.bytes 40 8 == i
  match if ok then openImage (pkgTileKey kc pkgId (imageSalt got.bytes) i) got.bytes else none with
  | some (image, l) =>
    let s := dropUnits (touchTile s (tileGfa tile)) none tile
    let mem := writeBytes (clearRange s.pool.mem (tile * 65536) 65536) (tile * 65536) l
    let s := { s with pool := { s.pool with mem := mem, marks := imageMarks got.bytes tile s.pool.marks } }
    (updTile s tile fun t => { t with
      sealedIdx := some i, image := some image, layout := image.layout }, bad)
  | none => (poisonTile (updTile (touchTile s (tileGfa tile)) tile fun t => { t with sealedIdx := some i }) tile true, bad + 1)

/-- The first chunk of a PKG_OPEN: the package is checked, and its slot opens. -/
def pkgTest (x : Cells) (s : State) (en : Entry) : State :=
  let g := descWord en.desc 16
  let dest := descWord en.desc 24
  let slot := descField en.desc 36 1
  let attach := descField en.desc 37 1 % 2 == 1
  let hashGfa := descWord en.desc 40
  let no := fun (s : State) => finishStatus s en.n 0x03 0 0
  let head := listRead s en x g 256
  if s.keys.pkgs.any (fun p => p.slot == slot) then no s
  else if head.status ≠ 0x00 then finishStatus s en.n head.status 0 0
  else match pkgHead head.bytes with
    | none => no s
    | some h =>
      let body := listRead s en x g (2304 + 1664 * h.m + 3309)
      let want := if hashGfa = 0 then ({ bytes := [], status := 0x00 } : Got) else listRead s en x hashGfa 48
      if worse body.status want.status ≠ 0x00 then finishStatus s en.n (worse body.status want.status) 0 0
      else
        let exts := pkgExtents h dest
        let hashOk := hashGfa == 0 || want.bytes == hashBytes (Config.sha3 (slice body.bytes 256 1952))
        match unwrapKey s h body.bytes with
        | none => no s
        | some kc =>
          if !(ownerSigned h body.bytes && hashOk && exts.all (pkgSuits s (entryRoom en))) then no s
          else
            let s := { s with keys := { s.keys with pkgs := s.keys.pkgs ++ [{ slot := slot, key := kc, pkgId := h.pkgId }] } }
            if attach || h.tiles == 0 then
              let s := exts.foldl (fun s k => updExtent s k fun y => { y with slot := some slot }) s
              closeChunk s en.n 0x00 0 0 0 10000 [0, h.m, h.tiles] true 0 0
            else closeChunk s en.n 0x00 0 0 0 0 [0, h.m, h.tiles] false 0 0

/-- A later chunk of a PKG_OPEN: one tile is placed; the extents are sealed to the slot with the last. A replay runs it whole, so
the checkpoint stays 0 (R386). -/
def pkgPlace (x : Cells) (s : State) (en : Entry) : State :=
  let dest := descWord en.desc 24
  let slot := descField en.desc 36 1
  let i := nextItem en
  let bad := tallyAt en 0
  let m := tallyAt en 1
  let n := tallyAt en 2
  match s.keys.pkgs.find? (fun p => p.slot == slot) with
  | none => finishStatus s en.n 0x03 0 0
  | some p =>
    let got := listRead s en x (descWord en.desc 16 + BitVec.ofNat 64 (5632 + 1664 * m + 65920 * i)) 65920
    if isLack got.status then finishStatus s en.n got.status 0 0
    else if meetsDrain s en.n (tileGfa (tileKey dest + i)) then closeChunk s en.n 0x06 i 0 i 0 [bad, m, n] false 0 0
    else
      let (s, bad) := placeTile s dest p.key p.pkgId bad i got
      let last : Bool := decide (n ≤ i + 1)
      let s := if last then
          (List.range ((n + 31) / 32)).foldl (fun s k => updExtent s (extKey dest + k) fun y => { y with slot := some slot }) s
        else s
      closeChunk s en.n 0x00 (i + 1) 0 (i + 1) (10000 * (i + 1) / max 1 n) [bad, m, n] last n bad

/-- PKG_OPEN on an entry that runs: a chunk. -/
def pkgOpenRun (x : Cells) (s : State) (en : Entry) : State := if en.tally.isEmpty then pkgTest x s en else pkgPlace x s en

/-- PKG_OPEN (R384). -/
def execPkgOpen (e : Nat) (x : Cells) (s : State) : Host.Outcome State Fault Refusal :=
  .next (settleAll (pump (withEntry s e 0x81 (pkgOpenRun x))))

/-- PKG_CLOSE on an entry that runs: from room 0x00 or the room of the extents sealed to the slot. -/
def pkgCloseRun (s : State) (en : Entry) : State :=
  let slot := descField en.desc 16 1
  if entryRoom en ≠ 0 ∧ s.maps.exts.any (fun x => x.slot == some slot && x.room != entryRoom en) then finishStatus s en.n 0x03 0 0
  else if !s.keys.pkgs.any (fun p => p.slot == slot) then finishStatus s en.n (absentStatus en) 0 0
  else finishDone { s with keys := { s.keys with pkgs := s.keys.pkgs.filter (fun p => p.slot != slot) } } en.n 0 0

/-- PKG_CLOSE (R386). -/
def execPkgClose (e : Nat) (s : State) : Host.Outcome State Fault Refusal :=
  .next (settleAll (pump (withEntry s e 0x82 pkgCloseRun)))

/-! ### Fraip images (R388 to R390) -/

/-- Check 1 of R389: format and reserved fields (Table 16-8). -/
def imageFormat (l : List Byte) : Bool :=
  l.take 4 == [0x46, 0x52, 0x41, 0x49] && leAt l 4 2 == 1 && decide (leAt l 6 1 ≤ 127) && decide (leAt l 7 1 ≤ 3)
    && decide (1 ≤ leAt l 8 4) && decide (leAt l 8 4 ≤ 8388608) && l.length == 8192 + leAt l 8 4 && decide (leAt l 12 4 < 16)
    && (slice l 16 48).all (· == 0) && (slice l 3421 3).all (· == 0) && (slice l 5376 2816).all (· == 0)

/-- R389: 0 if every check passes, else the number of the first that fails. -/
def imageCheck (f : Fuses) (l : List Byte) : Nat :=
  let slot := leAt l 7 1
  if !imageFormat l then 1
  else if Config.sha3 (slice l 3424 1952) ≠ f.keyHashes.getD slot 0 ∨ f.revoked.getLsbD slot then 2
  else if leAt l 6 1 < f.minSvn then 3
  else if hashBytes (Config.sha3 (l.drop 8192)) ≠ slice l 64 48 then 4
  else if !Config.mldsaOk (BitVec.ofNat 15616 (leAt l 3424 1952)) (l.take 112) (BitVec.ofNat 26472 (leAt l 112 3309)) then 5
  else 0

/-- Revocation bits of an accepted image are fused, unless they revoke the image's own slot (R389). -/
def fuseRevoked (f : Fuses) (l : List Byte) : Fuses :=
  let bits : BitVec 4 := BitVec.ofNat 4 (leAt l 12 4)
  if bits.getLsbD (leAt l 7 1) then f else { f with revoked := f.revoked ||| bits }

/-- E_n from E_(n-1) and M_n (R390). -/
def extendE (e m : BitVec 384) : BitVec 384 := Config.sha3 (hashBytes e ++ hashBytes m)

/-- E_1: the boot ROM after 48 zero bytes. -/
def e1 : BitVec 384 := extendE 0 Config.romHash

/-- The measurements take an image's values: M_2, E_2, the alias key, and E_3 over the M_3 of the running lock. -/
def measureImage (s : State) (l : List Byte) : State :=
  let m2 := Config.sha3 l
  let e2 := extendE e1 m2
  let m := s.boot.measure
  { s with boot := { s.boot with measure := { m with
    m2 := m2, e2 := e2, e3 := extendE e2 m.m3, svn := leAt l 6 1, slot := leAt l 7 1, aliasSeed := aliasFor s e2 } } }

/-- The image goes to the flash slot that does not hold the one booted, with a sequence number one above the other's (R416). -/
def flashImage (s : State) (l : List Byte) : State :=
  let seqOf := fun (x : Option FlashSlot) => match x with
    | some y => y.seq
    | none => 0
  if s.boot.source = 0 then { s with boot := { s.boot with flash1 := some { seq := seqOf s.boot.flash0 + 1, image := l } } }
  else { s with boot := { s.boot with flash0 := some { seq := seqOf s.boot.flash1 + 1, image := l } } }

/-- Another FW_UPDATE has begun and is not done (R392). -/
def fwBusy (s : State) (e : Nat) : Bool :=
  s.ledger.entries.any fun x => x.n != e && descOp x.desc == 0x83 && x.started && x.result.isNone

/-- FW_UPDATE action 0 on an entry that runs. -/
def fwActivateRun (x : Cells) (s : State) (en : Entry) : State :=
  if entryRoom en ≠ 0 then finishStatus s en.n 0x03 0 0
  else if descField en.desc 28 1 ≠ 0 then s
  else if fwBusy s en.n then finishStatus s en.n 0x03 0 0
  else match (if en.replayed then appliedOf s en else none) with
    | some r => finishDone s en.n r.1.toNat r.2.toNat
    | none =>
      let got := listRead s en x (descWord en.desc 16) (descField en.desc 24 4)
      if got.status ≠ 0x00 then finishStatus s en.n got.status 0 0
      else
        let c := imageCheck s.fuses got.bytes
        if c ≠ 0 then finishStatus s en.n 0x03 0 c
        else
          let s := { s with fuses := fuseRevoked s.fuses got.bytes }
          let s := flashImage (measureImage s got.bytes) got.bytes
          let s := updLedger s en.n fun y => { y with position := BitVec.ofNat 64 got.bytes.length }
          let m := s.boot.measure
          finishDone (recordApplied s en m.svn (m.m2.toNat % 2 ^ 64)) en.n m.svn (m.m2.toNat % 2 ^ 64)

/-- FW_UPDATE_ACTIVATE (R392). -/
def execFwUpdateActivate (e : Nat) (x : Cells) (s : State) : Host.Outcome State Fault Refusal :=
  .next (withEntry s e 0x83 (fwActivateRun x))

/-- FW_UPDATE action 1 on an entry that runs. -/
def fwCommitRun (s : State) (en : Entry) : State :=
  if entryRoom en ≠ 0 then finishStatus s en.n 0x03 0 0
  else if descField en.desc 28 1 ≠ 1 then s
  else if fwBusy s en.n then finishStatus s en.n 0x03 0 0
  else
    let v := max s.fuses.minSvn s.boot.measure.svn
    finishDone { s with fuses := { s.fuses with minSvn := v } } en.n v 0

/-- FW_UPDATE_COMMIT_SVN (R393). -/
def execFwUpdateCommitSvn (e : Nat) (s : State) : Host.Outcome State Fault Refusal := .next (withEntry s e 0x83 fwCommitRun)

end Sys2Proof.Machine
end

