-- ==== Sys2Proof/Machine/Boot.lean ====
section
/-!
DEFINITION. Machine/Boot.lean: the boot flash and its images (R416, R417), the set-up lock (R420, R433), the mirror read
(R422, R423), and what a cold start and a warm reset keep (R424, R427).
-/

namespace Sys2Proof.Machine

/-! ### RWL registers as one list -/

/-- `n` offsets from `base` on, `stride` apart. -/
def offsets (base stride n : Nat) : List Nat := (List.range n).map (fun k => base + stride * k)

/-- The offset of every RWL register, ascending (Tables 9-1, 18-6, 19-3 to 19-14). -/
def rwlOffsets : List Nat :=
  [ctlBase, idBase + 0x10] ++ offsets portBase 8 2 ++ offsets (portBase + 0x100) 8 128 ++ offsets (portBase + 0x500) 8 144
    ++ offsets (portBase + 0xA00) 8 16 ++ offsets (portBase + 0xA80) 8 16 ++ offsets (portBase + 0xB00) 8 16
    ++ (List.range 16).flatMap (fun n => offsets (portBase + 0xC00 + 0x40 * n) 8 7) ++ offsets trayBase 8 64
    ++ offsets dirBase 8 3 ++ [dirBase + 0x28] ++ offsets innkBase 8 2 ++ offsets ledgBase 8 4 ++ [keysBase]
    ++ (List.range 15).flatMap (fun k => offsets (keysBase + 0x140 + 0x40 * k) 8 6) ++ offsets timeBase 8 2
    ++ offsets ringBase 8 3

/-- What is hashed into M_3 (R390). -/
def rwlBytes (s : State) : List Byte := rwlOffsets.flatMap (fun o => leBytes 8 (rwl s o).toNat)

/-- The bytes of a set-up record before its hash (Table 18-2). -/
def recordBytes (autolock : Bool) (regs : List (Nat × Word)) : List Byte :=
  let l := regs.flatMap (fun x => leBytes 8 x.1 ++ leBytes 8 x.2.toNat)
  leBytes 2 0x000C ++ [if autolock then 1 else 0] ++ List.replicate 5 0 ++ leBytes 4 l.length ++ l

/-- The set-up record of the registers as they stand. -/
def setupRecord (s : State) (autolock : Bool) : SetupRec :=
  let regs := rwlOffsets.map (fun o => (o, rwl s o))
  { autolock := autolock, regs := regs, hash := Config.sha3 (recordBytes autolock regs) }

/-- Whether a record's hash checks. -/
def recordOk (r : SetupRec) : Bool := r.hash == Config.sha3 (recordBytes r.autolock r.regs)

/-- Writes the values of a record. -/
def applyRecord (s : State) (r : SetupRec) : State :=
  r.regs.foldl (fun s x => if (rwlReset s.fuses.a20 x.1).isSome then setRwl s x.1 x.2 else s) s

/-- RWL registers at their reset values, the lock open. -/
def openRegs (s : State) : State := { s with regs := { s.regs with rwl := [], locked := false, autolock := false } }

/-! ### What a reset clears (Table 18-5) -/

/-- A tile after a reset: a move that had not sent its commit is given up; one that had is Disputed (R165). -/
def resetTile (t : Tile) : Tile :=
  let m := if t.mig == .committing || t.mig == .disputed then Mig.disputed else .settled
  { t with mig := m, dest := if m == .disputed then t.dest else none, porter := none, dirty := [], tag := none, work := none }

/-- The same of a retained tile. -/
def resetKept (y : Retained) : Retained :=
  let m := if y.mig == .committing || y.mig == .disputed then Mig.disputed else .settled
  { y with mig := m, dest := if m == .disputed then y.dest else none, porter := none, tag := none, work := none }

/-- A tile after a cold start: lost in tier 0; on a tray it starts Unrecalled. -/
def coldTile (t : Tile) : Tile :=
  let t := resetTile t
  if t.res.tier = 0 then { t with lost := true } else { t with unrecalled := true }

/-- The data and marks of tier 0 are lost. -/
def loseTier0 (s : State) : State :=
  let gone := (s.maps.tiles.filter (fun t => t.res.tier == 0)).map (fun t => t.key)
  { s with pool := { s.pool with
      mem := gone.foldl (fun m k => clearRange m (k * 65536) 65536) s.pool.mem
      marks := s.pool.marks.filter (fun x => !gone.contains (x.1 / 1024))
      upsets := s.pool.upsets.filter (fun x => x.unit.cut.isSome || !gone.contains x.unit.tile) } }

/-- The maps as the journal gives them: handles closed, counted requests gone, the counters at zero. -/
def resetMaps (cold : Bool) (m : Maps) : Maps :=
  let lose := fun (r : Retained) =>
    if cold && r.res.tier == 0 then { resetKept r with released := true, cells := [], marks := [] } else resetKept r
  { exts := m.exts.map (fun x => { x with reqs := [] }), tiles := m.tiles.map (if cold then coldTile else resetTile)
    recs := m.recs, versions := m.versions, retained := m.retained.map lose, nextCut := m.nextCut
    evac := if cold then [] else m.evac, inService := if cold then [] else m.inService }

/-- Rooms after a reset: a commit goes on without its descriptor, which reports it again or runs again; a cold start zeroes the
counters of Table 19-18. -/
def resetRoom (cold : Bool) (x : Room) : Room :=
  let x : Room := { x with
    commit := x.commit.map (fun (c : Commit) => { c with e := none }), waiting := x.waiting.map (fun (c : Commit) => { c with e := none }) }
  if cold then { x with lateMoves := 0, demoted := 0, raw := 0, misses := 0, refused := 0 } else x

/-- The reference starts again: one step is allowed (R320). -/
def resetTime (t : TimeRef) : TimeRef := { now := t.now, phase := t.phase }

/-- Leases after a warm reset: a fresh period for every recorded holder. -/
def freshLeases (s : State) : List Lease :=
  (s.dir.leases.map (fun (x : Lease) => x.agent) ++ s.dir.entries.flatMap (fun e => e.ptrs)).eraseDups.map
    (fun a => { agent := a, until_ := s.time.now + leaseNs s })

/-- What both resets do to the state of every island. -/
def clearLogic (cold : Bool) (s : State) : State :=
  let paths := s.fab.routes
  { s with
    time := resetTime s.time
    fab := { routes := paths }
    own := {}
    dir := if cold then {} else
      { entries := s.dir.entries.map (fun e => { e with busy := false, promoted := false }), replay := s.dir.replay
        leases := freshLeases s }
    maps := resetMaps cold s.maps
    sync := {}
    rooms := { rooms := s.rooms.rooms.map (resetRoom cold), freed := if cold then [] else s.rooms.freed, domains := s.rooms.domains }
    ledger := { journal := s.ledger.journal, journalUsed := s.ledger.journalUsed, applied := s.ledger.applied
                mirrorSerial := s.ledger.mirrorSerial }
    engine := {}, coll := {}, filt := {}
    innk := { capSw := s.innk.capSw, capBmc := s.innk.capBmc, temps := s.innk.temps, dieMw := s.innk.dieMw }
    twin := { claimed := s.twin.claimed, adopted := s.twin.adopted }
    keys := { draws := s.keys.draws }
    mgmt := { link := s.mgmt.link, numVfs := s.mgmt.numVfs } }

/-- State that lives in SRAM and HBM is lost (R415, Table 18-5). -/
def clearCold (s : State) : State :=
  let s := clearLogic true (loseTier0 s)
  { s with
    regs := {}
    hlth := {}
    boot := { flash0 := s.boot.flash0, flash1 := s.boot.flash1, setupRec := s.boot.setupRec, retireRec := s.boot.retireRec }
    mgmt := {} }

/-- Tier 0, the directory, the fault log and the retired units are kept (Table 18-5). -/
def clearWarm (s : State) : State :=
  let s := clearLogic false s
  { s with
    hlth := { s.hlth with overwritten := 0 }
    boot := { flash0 := s.boot.flash0, flash1 := s.boot.flash1, setupRec := s.boot.setupRec, retireRec := s.boot.retireRec
              measure := s.boot.measure } }

/-! ### Set-up lock (R420 to R423, R433) -/

/-- R423: with a new region, or one whose rings belong to the twin, there is nothing to rebuild. -/
def initMirror (s : State) : State :=
  { s with
    maps := {}
    rooms := {}
    fab := { s.fab with routes := [], groups := [] }
    pool := {}
    dir := {}
    twin := { s.twin with adopted := [] }
    ledger := { mirrorSerial := s.ledger.mirrorSerial, rings := (adminRing s none).toList } }

/-- The mirror is the switch's own, and live. -/
def mirrorLive (s : State) (m : MirrorImage) : Bool := m.format == 0x0009 && m.owner == selfId s && m.state == 0

/-- Drain counts keep the descriptors that the replay has brought back; evacuations and queries start again. -/
def resumeMaps (s : State) : State :=
  let exts := s.maps.exts.map fun x => { x with descs := x.descs.filter (fun e => (ledgerEntry s e).isSome) }
  let s := refreshGroups (reclaimVersions { s with maps := { s.maps with exts := exts } })
  let s := (s.maps.evac.map (fun x => x.1)).foldl startEvacuation s
  ((movers s).filter (fun m => m.mig == .disputed)).foldl disputeTile s

/-- Step 11 and 12 of Table 18-3: the mirror is read, the maps are rebuilt, the rings replayed. Until a read succeeds no ring is
fetched. -/
def readMirror (s : State) (m : MirrorImage) (old : List SyncObj) : State :=
  if !m.reached then
    { s with ledger := { s.ledger with rings := (adminRing s none).toList, mirrorRead := false } }
  else
    let live := mirrorLive s m
    let s := if live then resumeMaps (replayOwn s m old) else initMirror s
    let s := refreshPair { s with keys := { s.keys with peer := m.key, peerEk := m.key.map (fun k => k.2.1) } }
    { s with ledger := { s.ledger with mirrorRead := true, headerSeen := m.state, headerState := 0 } }

/-- The lane reference clock is taken at once when it is named first; otherwise the sources named before it are waited for
(R317). -/
def startTime (s : State) : State :=
  let t := resetTime s.time
  { s with time := { t with lock := if timeOrder s 0 = 3 then 3 else 1, source := 3, lockedAt := s.time.now } }

/-- The lock is taken: the values are resolved, measured and written to the set-up record, and work may begin (R420). -/
def takeLock (s : State) (autolock : Bool) : State :=
  let s := setRwl s ctlBase (fieldOf 63 1 1 ||| fieldOf 62 1 (if autolock then 1 else 0))
  let s := resolveAtLock s
  let m3 := Config.sha3 (rwlBytes s)
  let m := { s.boot.measure with m3 := m3, e3 := extendE s.boot.measure.e2 m3 }
  let s := { s with
    regs := { s.regs with locked := true, autolock := autolock }
    boot := { s.boot with measure := m, power := .running, setupRec := some (setupRecord s autolock) }
    innk := { s.innk with capSw := bitsAt (rwl s innkBase) 0 16, capBmc := bitsAt (rwl s innkBase) 32 16 }
    keys := { s.keys with sS := some (storageSecret s) }
    twin := { s.twin with peerSeenAt := s.time.now, witnessAt := s.time.now } }
  refreshPair (startTime s)

/-- The witness holds the partner's ID: the partner has taken over (R422). -/
def witnessLost (s : State) (m : MirrorImage) : Bool :=
  twinPresent s && witnessPresent s && (match m.witness with
    | some w => w != 0 && w.toNat == (twinId s).toNat
    | none => false)

/-- The lock and all that follows it up to the first acceptance. `stage` gives the last step reached: with the mirror read, and
without. -/
def lockAndStart (s : State) (autolock : Bool) (m : MirrorImage) (old : List SyncObj) (stage stageNoMirror : Nat) : State :=
  let s := takeLock s autolock
  if witnessLost s m then stopTwin { s with boot := { s.boot with stage := stageNoMirror } }
  else
    let s := readMirror s m old
    settleAll (pump { s with boot := { s.boot with stage := if m.reached then stage else stageNoMirror } })

/-! ### Images (R417, R418) -/

/-- The slots in the order in which they are tried: descending sequence numbers, slot 0 first when they are equal. -/
def bootOrder (b : Boot) : List (Nat × FlashSlot) :=
  match b.flash0, b.flash1 with
  | some x, some y => if x.seq.toNat ≥ y.seq.toNat then [(0, x), (1, y)] else [(1, y), (0, x)]
  | some x, none => [(0, x)]
  | none, some y => [(1, y)]
  | none, none => []

/-- The first slot whose image passes, and the failing check of the last slot rejected. -/
def pickImage (f : Fuses) : List (Nat × FlashSlot) → Nat → Option (Nat × List Byte) × Nat
  | [], c => (none, c)
  | x :: l, c => if imageCheck f x.2.image = 0 then (some (x.1, x.2.image), c) else pickImage f l (imageCheck f x.2.image)

/-- An image runs: its revocations are fused and it is measured; M_3 stands at zero until the lock. -/
def runImage (s : State) (source : Nat) (l : List Byte) : State :=
  let m := s.boot.measure
  let s := { s with boot := { s.boot with source := source, measure := { m with m3 := 0 } }, fuses := fuseRevoked s.fuses l }
  let s := measureImage s l
  { s with boot := { s.boot with measure := { s.boot.measure with e3 := 0 } } }

/-- No slot passes: the boot ROM waits for an image in the PF mailbox (R447). -/
def awaitImage (s : State) : State :=
  { s with boot := { s.boot with power := .imageWait, mboxState := 1, stage := 4 } }

/-- Fraip has started and waits for the host (step 6). -/
def awaitHost (s : State) : State := { s with boot := { s.boot with power := .setUp, stage := 6 } }

/-- Step 6 of a cold start: an autolock record is applied and the lock taken (R421). -/
def coldStep6 (s : State) (m : MirrorImage) : State :=
  let s := awaitHost s
  match s.boot.setupRec with
  | some r =>
    if !r.autolock then s
    else if recordOk r then lockAndStart (applyRecord s r) true m [] 12 8
    else { s with boot := { s.boot with recBad := s.boot.recBad + 1 } }
  | none => s

/-- Step 6 of a warm reset: the record is applied whatever its autolock byte; if its hash fails, or M_3 comes out different, the
switch waits for the host and writes a security fault record (R424). -/
def warmStep6 (s : State) (m3 : BitVec 384) (m : MirrorImage) (old : List SyncObj) : State :=
  let s := awaitHost s
  match s.boot.setupRec with
  | some r =>
    let t := resolveAtLock (setRwl (applyRecord (openRegs s) r) ctlBase
      (fieldOf 63 1 1 ||| fieldOf 62 1 (if r.autolock then 1 else 0)))
    if !recordOk r then securityFault (openRegs { s with boot := { s.boot with recBad := s.boot.recBad + 1 } }) 0
    else if Config.sha3 (rwlBytes t) ≠ m3 then securityFault (openRegs s) 0
    else lockAndStart (applyRecord (openRegs s) r) r.autolock m old 8 6
  | none => securityFault (openRegs s) 0

/-! ### Units at a cold start (step 3, R419) -/

/-- Self-test finds units failed: each is retired; a core unit fails the switch. -/
def selfTest (s : State) (units : List (Nat × Nat)) : State :=
  let tiles := s.maps.tiles
  let s := { s with maps := { s.maps with tiles := [] } }
  let s := units.foldl (fun s u => if unitCount u.1 = 0 then enterHealth s .failed else retireUnit s u.1 u.2 0) s
  { s with maps := { s.maps with tiles := tiles, evac := [] } }

/-! ### The two resets -/

/-- Steps 1 to 12 of Table 18-3. -/
def coldStart (s : State) (env : ColdEnv) (m : MirrorImage) : State :=
  let was := s.hlth.replace
  let s := clearCold s
  let s := { s with mgmt := { s.mgmt with numVfs := env.numVfs }, boot := { s.boot with kind := 1, cause := 0, stage := 0 } }
  let s := if was then say s (.pin 1 false) else s
  if env.bootHoldLow then { s with boot := { s.boot with power := .testHold, stage := 1 } }
  else
    let s := selfTest { s with boot := { s.boot with power := .setUp, stage := 4 } } env.failedUnits
    if s.boot.power = .failed then s
    else match pickImage s.fuses (bootOrder s.boot) 0 with
      | (some (src, l), c) => coldStep6 (runImage { s with boot := { s.boot with check := c } } src l) m
      | (none, c) => awaitImage { s with boot := { s.boot with check := c } }

/-- Steps 1 to 8 of Table 18-4. -/
def warmReset (s : State) (cause : Nat) (m : MirrorImage) : State :=
  let m3 := s.boot.measure.m3
  let old := s.sync.objs
  let s := clearWarm s
  let s := { s with boot := { s.boot with kind := 2, cause := cause } }
  match pickImage s.fuses (bootOrder s.boot) 0 with
  | (some (src, l), c) => warmStep6 (runImage { s with boot := { s.boot with check := c } } src l) m3 m old
  | (none, c) => awaitImage (openRegs { s with boot := { s.boot with check := c } })

end Sys2Proof.Machine
end

