-- ==== Sys2Proof/Machine/Reset.lean ====
section
/-!
DEFINITION. Machine/Reset.lean: power-up, the resets and the set-up lock (R415 to R426), the boot mailbox (R446, R447), and the
management link and its function level reset (R400).
-/

namespace Sys2Proof.Machine

/-! ### Power (R415, R418) -/

/-- COLD_START (R415, R419): a rising edge of PWRGOOD_IN, the only start of a cold start. -/
def execColdStart (env : ColdEnv) (mirror : MirrorImage) (s : State) : Host.Outcome State Fault Refusal :=
  .next (if s.boot.power = .off then coldStart s env mirror else s)

/-- BOOT_TIMEOUT (R418, R447): no image has passed within 10 s of the edge. -/
def execBootTimeout (s : State) : Host.Outcome State Fault Refusal :=
  .next (if s.boot.power = .imageWait then
      { s with boot := { s.boot with power := .testHold, mboxState := 0, mboxGo := false } }
    else s)

/-- POWER_LOSS (R415): a falling edge of PWRGOOD_IN stops all clocks and lanes; what is lost with it is gone at the next start. -/
def execPowerLoss (s : State) : Host.Outcome State Fault Refusal :=
  .next { s with
    boot := { s.boot with power := .off }
    fab := { s.fab with
      ports := s.fab.ports.map (fun q => { q with up := false })
      brg := s.fab.brg.map (fun q => { q with up := false })
      flex := s.fab.flex.map (fun q => { q with up := false }) } }

/-- RAIL_FAULT (R415): the switch stops, enters Failed and drives REPLACE_REQ_N low. -/
def execRailFault (s : State) : Host.Outcome State Fault Refusal := .next (if s.boot.power = .off then s else stopClocks s)

/-! ### Warm reset and room reset (R424, R426, R428) -/

/-- Whether a warm reset finds a switch that it can restart: test-hold and Failed end only with a cold start. -/
def canWarm (s : State) : Bool := s.boot.power == .running || s.boot.power == .setUp || s.boot.power == .imageWait

/-- SYS_RST_N (R415, R424). -/
def execSysRstN (mirror : MirrorImage) (s : State) : Host.Outcome State Fault Refusal :=
  .next (if canWarm s then warmReset s 1 mirror else s)

/-- BAR0 is open (R420, Table 18-3 step 6). -/
def bar0Open (s : State) : Bool := s.boot.power == .setUp || s.boot.power == .running || s.boot.power == .failed

/-- A `CTL.RESET` write that is ignored is counted (Table 18-9). -/
def ignoreReset (s : State) : State := { s with boot := { s.boot with rstIgn := s.boot.rstIgn + 1 } }

/-- Fields of `CTL.RESET` (Table 18-8). -/
def resetKind (v : Word) : Nat := bitsAt v 56 8
def resetTarget (v : Word) : RoomId := v.extractLsb' 48 8
def resetConfirmed (v : Word) : Bool := bitsAt v 0 16 == 0xA5A5

/-- WARM_RESET (R424, R428). -/
def execWarmReset (value : Word) (mirror : MirrorImage) (s : State) : Host.Outcome State Fault Refusal :=
  .next (if !bar0Open s then s
    else if resetKind value = 1 ∧ resetConfirmed value then (if canWarm s then warmReset s 2 mirror else ignoreReset s)
    else ignoreReset s)

/-- A room reset begins: the elastic work of the room's rings ends as by RING_SET action 2; the rings stay enabled (R426). -/
def startRoomReset (s : State) (r : RoomId) : State :=
  let s := { s with boot := { s.boot with roomResets := s.boot.roomResets ++ [r] } }
  let ids := (s.ledger.rings.filter (fun x => x.room == r)).map (fun x => x.id)
  settleRoomResets (ids.foldl endElastic s)

/-- ROOM_RESET (R426, R428): room 0x00, and a room whose reset is under way, are ignored. -/
def execRoomReset (value : Word) (s : State) : Host.Outcome State Fault Refusal :=
  .next (if !bar0Open s then s
    else if isRunning s && resetKind value == 2 && resetConfirmed value && resetTarget value != 0
        && !s.boot.roomResets.contains (resetTarget value) then startRoomReset s (resetTarget value)
    else ignoreReset s)

/-! ### The set-up lock (R420) -/

/-- SET_UP_LOCK (R420): writing 1 to `lock`, with the value of `autolock` in the same write and the VFs that the host has enabled
by then. After the lock the write is one more RWL write that is ignored. -/
def execSetUpLock (autolock : Bool) (numVfs : Nat) (mirror : MirrorImage) (s : State) : Host.Outcome State Fault Refusal :=
  .next (if s.boot.power = .setUp then
      let s := { s with mgmt := { s.mgmt with numVfs := numVfs } }
      if s.boot.kind = 2 then lockAndStart s autolock mirror [] 8 6 else lockAndStart s autolock mirror [] 12 8
    else if bar0Open s then { s with regs := { s.regs with rwlIgnored := s.regs.rwlIgnored + 1 } }
    else s)

/-! ### The boot mailbox (R446, R447) -/

/-- A write to the mailbox that is ignored and counted. -/
def ignoreMbox (s : State) : State := { s with boot := { s.boot with mboxIgnored := s.boot.mboxIgnored + 1 } }

/-- The boot ROM waits for an image or has rejected one. -/
def takesImage (s : State) : Bool := s.boot.power == .imageWait && (s.boot.mboxState == 1 || s.boot.mboxState == 3)

/-- The window's bytes at an offset of MBOX.IMAGE (16 MiB). -/
def windowBytes : Nat := 16777216

/-- BOOT_IMAGE_WRITE (R446): 64-bit writes to the window, one after the other. -/
def execBootImageWrite (offset : Nat) (data : List Byte) (s : State) : Host.Outcome State Fault Refusal :=
  .next (if !(bar0Open s || s.boot.power == .imageWait) then s
    else if !takesImage s then ignoreMbox s
    else if offset % 8 ≠ 0 ∨ data.length % 8 ≠ 0 then { s with regs := { s.regs with badIgnored := s.regs.badIgnored + 1 } }
    else
      let cells := (data.zipIdx offset).filter (fun x => decide (x.2 < windowBytes))
      let kept := s.boot.mboxImage.filter (fun c => !(decide (offset ≤ c.1) && decide (c.1 < offset + data.length)))
      { s with boot := { s.boot with mboxImage := kept ++ cells.map (fun x => (x.2, x.1)) } })

/-- BOOT_IMAGE_GO (R447). -/
def execBootImageGo (len : Nat) (s : State) : Host.Outcome State Fault Refusal :=
  .next (if !(bar0Open s || s.boot.power == .imageWait) then s
    else if !takesImage s then ignoreMbox s
    else { s with boot := { s.boot with mboxGo := true, mboxState := 2, mboxLen := clampNat 8193 8396800 len } })

/-- The image in the window; a byte that was never written is a free value. -/
def windowImage (s : State) : List Byte :=
  (List.range s.boot.mboxLen).map fun i => match s.boot.mboxImage.find? (fun c => c.1 == i) with
    | some c => c.2
    | none => Config.imageByte i

/-- BOOT_CHECK_DONE (R447): the image is rejected and another awaited, or the boot goes on with it. -/
def execBootCheckDone (mirror : MirrorImage) (s : State) : Host.Outcome State Fault Refusal :=
  .next (if s.boot.power = .imageWait ∧ s.boot.mboxState = 2 then
      let l := windowImage s
      let c := imageCheck s.fuses l
      if c ≠ 0 then { s with boot := { s.boot with mboxState := 3, mboxGo := false, mboxCheck := c } }
      else
        let m3 := s.boot.measure.m3
        let s := runImage s 2 l
        let s := { s with boot := { s.boot with mboxState := 0, mboxGo := false } }
        if s.boot.kind = 2 then warmStep6 s m3 mirror [] else coldStep6 s mirror
    else s)

/-! ### The management link (R400, R415) -/

/-- The link is down: fetch from function rings stops, and their records wait. -/
def linkDown (s : State) : State := { s with mgmt := { s.mgmt with link := false } }

/-- MGMT_PERST_N (R415): its effect is a management link down. -/
def execMgmtPerstN (s : State) : Host.Outcome State Fault Refusal := .next (if s.boot.power = .off then s else linkDown s)

/-- MGMT_LINK_DOWN (R400). -/
def execMgmtLinkDown (s : State) : Host.Outcome State Fault Refusal := .next (linkDown s)

/-- MGMT_LINK_UP (R400): the records that waited are written in order; the VFs are those that the host has enabled since. -/
def execMgmtLinkUp (numVfs : Nat) (s : State) : Host.Outcome State Fault Refusal :=
  .next (if s.boot.power = .off then s
    else
      let s := s.mgmt.waitRecs.foldl (fun s x => say s (.hostWrite x.1 x.2.1 (leBytes 32 x.2.2.toNat))) s
      { s with mgmt := { s.mgmt with link := true, waitRecs := [], numVfs := numVfs } })

/-- VF_FLR (R400): the VF's rings stop and are disabled; their accepted work completes into the fault log, with any record that
was being written. -/
def execVfFlr (fn : Nat) (s : State) : Host.Outcome State Fault Refusal :=
  .next (if isRunning s && decide (1 ≤ fn) && decide (fn < 64) then
      let ids := (s.ledger.rings.filter (fun r => !r.fabric && r.fn == fn)).map (fun r => r.id)
      let s := { s with
        ledger := { s.ledger with
          rings := mapIf (fun (r : Ring) => ids.contains r.id) (fun r => { r with enabled := false }) s.ledger.rings
          entries := mapIf (fun (x : Entry) => ids.contains x.ring && !x.adopted)
            (fun x => { x with adopted := true, fn := fn, recorded := false }) s.ledger.entries }
        mgmt := { s.mgmt with
          waitRecs := s.mgmt.waitRecs.filter (fun x => x.1 != fn)
          flr := if s.mgmt.flr.contains fn then s.mgmt.flr else s.mgmt.flr ++ [fn] } }
      settleDisables (settleFlr (ids.foldl mirrorRing s))
    else s)

end Sys2Proof.Machine
end

