-- ==== Sys2Proof/Machine/RegisterAccess.lean ====
section
/-!
DEFINITION. Machine/RegisterAccess.lean: what every register of BAR0 reads as (chapters 9, 18, 19), and REGISTER_WRITE
(R430, R431, R446).
-/

namespace Sys2Proof.Machine

/-- A word made of fields (low bit, width, value); a value too large for its field reads as all ones (R434). -/
def fields (l : List (Nat × Nat × Nat)) : Word :=
  l.foldl (fun w x => w ||| fieldOf x.1 x.2.1 (min x.2.2 (2 ^ x.2.1 - 1))) 0

def flag (b : Bool) : Nat := if b then 1 else 0

/-! ### CTL and ID -/

/-- `CTL.BOOT` (Table 18-9). -/
def regBoot (s : State) : Word :=
  let b := s.boot
  fields [(60, 4, b.kind), (56, 4, b.cause), (48, 8, b.stage), (46, 2, b.source), (40, 6, b.check), (32, 8, b.recBad),
    (24, 8, b.roomRst), (16, 8, b.rstIgn)]

/-- `ID.PART` (R435). -/
def regPart (s : State) : Word := if s.fuses.a20 then 0x740020A100000000 else 0x740024A100000000

/-! ### Ports and trays -/

/-- Width code of Table 19-5. -/
def widthCode (lanes : Nat) : Nat := if lanes ≥ 8 then 3 else if lanes ≥ 4 then 2 else 1

/-- Status registers of a fabric port (Table 19-6). -/
def regFab (s : State) (n k : Nat) : Word :=
  match fabPort s n with
  | none => 0
  | some q =>
    if k = 0 then fields [(63, 1, flag q.up), (61, 2, if q.up then widthCode q.lanes else 0), (60, 1, flag (q.up && q.sess.phase == 6)),
      (0, 32, q.downs)]
    else if k = 1 then fields [(32, 32, q.retries), (0, 32, q.malformed)]
    else if k = 2 then fields [(32, 32, q.hopDiscards), (0, 32, q.mcastDiscards)]
    else fields [(32, 32, q.marked), (0, 32, q.flushed)]

/-- Lane code of a bridge port's status. -/
def laneCode (lanes : Nat) : Nat := if lanes ≥ 8 then 4 else if lanes ≥ 4 then 3 else if lanes ≥ 2 then 2 else if lanes ≥ 1 then 1 else 0

/-- Status registers of a bridge port (Table 19-6). -/
def regBrg (s : State) (n k : Nat) : Word :=
  match brgPort s n with
  | none => 0
  | some q =>
    if k = 0 then fields [(63, 1, flag q.up), (60, 3, if q.up then laneCode q.lanes else 0), (59, 1, flag (q.up && q.sess.phase == 6)),
      (0, 32, q.downs)]
    else if k = 1 then fields [(32, 32, q.valFails), (0, 32, q.resent)]
    else if k = 2 then fields [(32, 32, q.pauseDiscards), (0, 32, q.otherDiscards)]
    else fields [(32, 32, q.marked), (0, 32, q.flushed)]

/-- What a tray declares for a tier (Table 19-7). -/
def regTier : Option TierDecl → Word
  | some d => fields [(63, 1, 1), (48, 15, d.readRate), (32, 16, d.writeRate), (0, 32, d.bound)]
  | none => 0

/-- Registers of a tray attachment (Table 19-7). -/
def regTray (s : State) (n k : Nat) : Word :=
  match trayOf s n with
  | none => 0
  | some t =>
    if k = 0 then fields [(32, 32, trayTiles s 2 n / 32), (0, 32, trayTiles s 1 n / 32)]
    else if k = 1 then regTier t.t1
    else if k = 2 then regTier t.t2
    else fields [(63, 1, flag t.present), (62, 1, flag t.lost), (0, 32, t.timesLost)]

/-! ### DIR, INNK, LEDG, KEYS, TIME -/

def regDir (s : State) (o : Nat) : Option Word :=
  if o = 0x18 then some (fields [(32, 32, s.dir.entries.length), (0, 32, s.dir.victims)])
  else if o = 0x20 then some (fields [(32, 32, s.dir.lostCount), (0, 32, s.dir.lateLost)])
  else if o = 0x30 then some (fields [(32, 32, s.maps.placedAway), (0, 32, s.maps.released)])
  else none

/-- Four temperatures from a die on (Table 19-9). -/
def regTemps (s : State) (die : Nat) : Word :=
  fields ((List.range 4).map fun k => (16 * k, 16, s.innk.temps.getD (die + k) 0))

def regInnk (s : State) (o : Nat) : Option Word :=
  if o = 0x10 then some (if s.regs.locked then
      fields [(32, 16, s.innk.capBmc), (16, 16, s.innk.capSw), (0, 16, effectiveCap s / 1000)] else 0)
  else if o = 0x18 then some (fields [(32, 16, fixedForecast s / 1000), (16, 16, energyAt s s.time.now / 1000), (0, 16, measuredMw s / 1000)])
  else if o = 0x20 then some (regTemps s 0)
  else if o = 0x28 then some (regTemps s 4)
  else if o = 0x30 then some (fields [(48, 16, s.innk.capOverruns), (32, 16, s.innk.hotEntries), (0, 32, s.innk.refused)])
  else none

def regLedg (s : State) (o : Nat) : Option Word :=
  if o = 0x20 then some (fields [(62, 2, s.ledger.target), (60, 2, s.ledger.headerSeen), (32, 19, ledgerCount s),
    (0, 32, s.ledger.mirrorSerial.toNat)])
  else if o = 0x28 then some (fields [(32, 32, s.twin.peerBeat / 2 ^ 10 % 2 ^ 32), (0, 32, s.twin.beats)])
  else none

def regKeys (s : State) (o : Nat) : Option Word :=
  if o = 8 then some (fields [(63, 1, flag s.keys.sS.isSome), (62, 1, flag s.keys.sP.isSome), (40, 9, s.keys.pkgs.length),
    (0, 32, s.keys.secFaults)])
  else if inArr o 0x100 8 6 then some ((anchor s 0).extractLsb' (8 * (o - 0x100)) 64)
  else none

/-- `TIME.STAT` (Table 19-14): the offset is signed. -/
def regTime (s : State) (o : Nat) : Option Word :=
  if o = 0x10 then some (fields [(62, 2, s.time.lock), (60, 2, s.time.source), (52, 8, s.time.steps)]
    ||| (BitVec.ofInt 32 s.time.offset).setWidth 64)
  else if o = 0x18 then some (BitVec.ofNat 64 s.time.now)
  else none

/-! ### HLTH and FILT -/

/-- Numbers of Table 19-17: first number of each unit code. -/
def unitBase (code : Nat) : Nat :=
  match code with
  | 0x01 => 0
  | 0x02 => 144
  | 0x03 => 592
  | 0x04 => 656
  | 0x05 => 720
  | 0x06 => 848
  | 0x07 => 864
  | 0x08 => 872
  | 0x09 => 1128
  | 0x0A => 1192
  | _ => 1208

/-- `HLTH.RET_k`. -/
def regRetired (s : State) (k : Nat) : Word :=
  s.hlth.retired.foldl (fun w u =>
    let n := unitBase u.1 + u.2
    if n / 64 = k then w ||| fieldOf (n % 64) 1 1 else w) 0

/-- `HLTH.EVAC` (R172): the oldest evacuation. -/
def regEvac (s : State) : Word :=
  match s.maps.evac with
  | [] => 0
  | (c, all) :: _ =>
    let left := ((movers s).filter (fun m => m.res.tier == 0 && m.res.unit == c && !m.lost)).length
    fields [(63, 1, 1), (56, 4, c), (0, 16, if all = 0 then 10000 else 10000 * (all - left) / all)]

/-- Serial of the newest fault record. -/
def newestSerial (s : State) : Nat :=
  match s.hlth.log.getLast? with
  | some r => r.serial.toNat
  | none => 0

def regHlth (s : State) (o : Nat) : Option Word :=
  if o = 0 then some (fields [(62, 2, healthCode s.hlth.state), (61, 1, flag s.hlth.replace), (48, 8, s.hlth.retired.length),
    (32, 16, s.hlth.overwritten), (0, 32, newestSerial s)])
  else if o = 8 then some (fields ((List.range 16).map fun i => (4 * i, 4, s.hlth.roles.getD i 0xF)))
  else if o = 0x10 then some (regEvac s)
  else if o = 0x18 then some (fields [(32, 32, s.regs.rwlIgnored), (0, 32, s.regs.badIgnored)])
  else if inArr o 0x100 8 22 then some (regRetired s ((o - 0x100) / 8))
  else none

/-- The count of an array in a list of counts. -/
def countAt (l : List (Nat × Nat)) (a : Nat) : Nat :=
  match l.find? (fun x => x.1 == a) with
  | some x => x.2
  | none => 0

def regFilt (s : State) (o : Nat) : Option Word :=
  if inArr o 0 8 8 then some (fields [(32, 32, countAt s.filt.falseHits (o / 8)), (0, 32, countAt s.filt.rewrites (o / 8))]) else none

/-! ### ROOM and RING -/

/-- Clusters of a room's slice held by its open caravans and contexts. -/
def heldClusters (s : State) (r : RoomId) : Nat :=
  (((s.engine.caravans.filter (fun v => v.room == r)).flatMap (fun v => v.stages.flatMap (fun g => g.clusters)))
    ++ (s.coll.ctxs.filter (fun c => c.room == r)).flatMap (fun c => c.clusters)).eraseDups.length

/-- A room that has been composed: as it stands, or as it was freed. -/
def composedRoom (s : State) (r : RoomId) : Option Room :=
  match (roomOf s r).filter (fun x => x.current != 0) with
  | some x => some x
  | none => s.rooms.freed.find? (fun x => x.id == r)

/-- Registers of a room (Table 19-18, R445); zero until it is first composed. -/
def regRoom (s : State) (r : RoomId) (k : Nat) : Word :=
  match composedRoom s r with
  | none => 0
  | some x =>
    if k = 0 then fields [(48, 16, x.current.toNat), (32, 16, (x.older.getD 0).toNat), (16, 1, flag x.older.isSome), (0, 16, x.holder.toNat)]
    else if k = 1 then fields [(32, 32, quotaOf s r 0), (0, 32, quotaUse s r 0)]
    else if k = 2 then fields [(32, 32, quotaOf s r 1), (0, 32, quotaUse s r 1)]
    else if k = 3 then fields [(32, 32, quotaOf s r 2), (0, 32, quotaUse s r 2)]
    else if k = 4 then fields [(32, 32, x.lateMoves), (0, 32, overdraft s r)]
    else if k = 5 then fields [(32, 32, x.demoted), (0, 32, x.raw)]
    else if k = 6 then fields [(32, 32, x.misses), (0, 32, x.refused)]
    else match sliceOf s r with
      | some y => fields [(48, 16, y.share), (40, 8, ((List.range 144).filter (fun c => y.clusters.getLsbD c)).length),
          (32, 8, heldClusters s r)]
      | none => 0

/-- Status registers of a ring (Tables 9-11, 9-12). -/
def regRing (s : State) (id : BitVec 12) (k : Nat) : Word :=
  match ringOf s id with
  | none => 0
  | some r =>
    if k = 0 then fields [(32, 32, r.h.toNat), (0, 32, r.tail.toNat)]
    else if k = 1 then fields [(32, 32, r.nw.toNat), (0, 32, r.head.toNat)]
    else if k = 2 then fields [(52, 12, r.clampOp.toNat), (46, 6, r.clampByte), (0, 32, r.clamps)]
    else fields [(48, 16, r.dbIgnored), (32, 16, r.stale), (16, 16, r.skipped), (0, 1, flag r.enabled)]

/-! ### MBOX -/

/-- `MBOX.BOOT_CTL` (Table 19-20). -/
def regBootCtl (s : State) : Word :=
  fields [(63, 1, flag s.boot.mboxGo), (60, 3, s.boot.mboxState), (48, 6, s.boot.mboxCheck), (0, 32, s.boot.mboxLen)]

/-- Offset inside a function mailbox, and its function; none outside them. -/
def boxPlace (o : Nat) : Option (Nat × Nat) :=
  if 0x10000 ≤ o ∧ o < 0x10000 + 0x1000 * 64 then some ((o - 0x10000) / 0x1000, (o - 0x10000) % 0x1000) else none

/-- Eight bytes of a list from an offset on; bytes beyond its end are zero. -/
def wordAt (l : List Byte) (o : Nat) : Word := BitVec.ofNat 64 (leVal ((l.drop o).take 8))

def regMbox (s : State) (o : Nat) : Option Word :=
  if o = 0 then some (regBootCtl s)
  else match boxPlace o with
    | none => if 0x1000000 ≤ o ∧ o < 0x2000000 then some 0 else none
    | some (f, k) =>
      let b := boxOf s f
      if k = 0 then some (fields [(63, 1, flag b.req), (62, 1, flag b.rsp), (32, 11, b.resp.length), (0, 11, b.reqLen)])
      else if 0x100 ≤ k ∧ k < 0x500 then some (BitVec.ofNat 64 (leVal (readBytes b.request (k - 0x100) 8)))
      else if 0x500 ≤ k ∧ k < 0x900 then some (wordAt b.resp (k - 0x500))
      else none

/-! ### Reads (R429, R430) -/

/-- The register at a BAR0 offset; none for a reserved offset. -/
def readReg (s : State) (o : Nat) : Option Word :=
  if (rwlReset s.fuses.a20 o).isSome then some (rwl s o)
  else if o = ctlBase + 8 then some 0
  else if o = ctlBase + 0x10 then some (regBoot s)
  else if o = idBase then some (regPart s)
  else if o = idBase + 8 then some s.fuses.serial
  else if inArr o (portBase + 0x2000) 8 512 then some (regFab s ((o - portBase - 0x2000) / 0x20) ((o - portBase - 0x2000) % 0x20 / 8))
  else if inArr o (portBase + 0x3000) 8 64 then some (regBrg s ((o - portBase - 0x3000) / 0x20) ((o - portBase - 0x3000) % 0x20 / 8))
  else if inArr o (trayBase + 0x200) 8 256 then some (regTray s ((o - trayBase - 0x200) / 0x20) ((o - trayBase - 0x200) % 0x20 / 8))
  else if inArr o dirBase 8 512 then regDir s (o - dirBase)
  else if inArr o innkBase 8 512 then regInnk s (o - innkBase)
  else if inArr o ledgBase 8 512 then regLedg s (o - ledgBase)
  else if inArr o keysBase 8 512 then regKeys s (o - keysBase)
  else if inArr o timeBase 8 512 then regTime s (o - timeBase)
  else if inArr o hlthBase 8 512 then regHlth s (o - hlthBase)
  else if inArr o filtBase 8 512 then regFilt s (o - filtBase)
  else if inArr o roomBase 8 2048 then some (regRoom s (BitVec.ofNat 8 ((o - roomBase) / 0x40)) ((o - roomBase) % 0x40 / 8))
  else if inArr o (ringBase + 0x10000) 8 16384 then
    some (regRing s (BitVec.ofNat 12 ((o - ringBase - 0x10000) / 0x20)) ((o - ringBase - 0x10000) % 0x20 / 8))
  else if mboxBase ≤ o then regMbox s (o - mboxBase)
  else none

/-- A BAR0 read (R430, R446): none where the port does not serve it. Before an image has been found the MBOX block alone is
open. -/
def barRead (s : State) (o size : Nat) : Option Word :=
  if !(bar0Open s || s.boot.power == .imageWait) then none
  else
    let at_ := fun (o : Nat) => if s.boot.power == .imageWait && decide (o < mboxBase) then 0 else (readReg s o).getD 0
    if size = 8 ∧ o % 8 = 0 then some (at_ o)
    else if size = 4 ∧ o % 4 = 0 then some (BitVec.ofNat 64 (bitsAt (at_ (o - o % 8)) (8 * (o % 8)) 32))
    else none

/-! ### REGISTER_WRITE (R430, R431) -/

/-- A write that is ignored and counted for its size, alignment or offset. -/
def ignoreBad (s : State) : State := { s with regs := { s.regs with badIgnored := s.regs.badIgnored + 1 } }

/-- A write of an RWL register: after the lock it is ignored and counted. A new window base holds its port's length to the new range,
which Table 19-4 measures from the base (DEDUCED). -/
def writeRwl (s : State) (o : Nat) (v : Word) : State :=
  if s.regs.locked then { s with regs := { s.regs with rwlIgnored := s.regs.rwlIgnored + 1 } }
  else
    let s := setRwl s o (legalRwl s o v)
    if inArr o (portBase + 0xA80) 8 16 then setRwl s (o + 0x80) (legalRwl s (o + 0x80) (rwl s (o + 0x80))) else s

/-- A write in the MBOX block: `len`; a function mailbox's length, W1C bit and request buffer. `go`, `req` and the image window
have rows of their own. -/
def writeMbox (s : State) (o : Nat) (v : Word) : State :=
  if o = 0 then (if bitsAt v 63 1 = 1 then s else { s with boot := { s.boot with mboxLen := clampNat 8193 8396800 (bitsAt v 0 32) } })
  else match boxPlace o with
    | none => if 0x1000000 ≤ o ∧ o < 0x2000000 then s else ignoreBad s
    | some (f, k) =>
      let b := boxOf s f
      if k = 0 then (if bitsAt v 63 1 = 1 then s
        else putBox s { b with rsp := b.rsp && bitsAt v 62 1 == 0, reqLen := clampNat 5 1024 (bitsAt v 0 11) })
      else if 0x100 ≤ k ∧ k < 0x500 then putBox s { b with request := writeBytes b.request (k - 0x100) (leBytes 8 v.toNat) }
      else if 0x500 ≤ k ∧ k < 0x900 then s
      else ignoreBad s

/-- A 64-bit aligned write to a register. -/
def writeReg (s : State) (o : Nat) (v : Word) : State :=
  if o = ctlBase then (if bitsAt v 63 1 = 1 then s else writeRwl s o v)
  else if o = ctlBase + 8 then
    (if (resetKind v = 1 ∨ resetKind v = 2) ∧ resetConfirmed v then s else ignoreReset s)
  else if (rwlReset s.fuses.a20 o).isSome then writeRwl s o v
  else if mboxBase ≤ o then writeMbox s (o - mboxBase) v
  else if (readReg s o).isSome then s
  else ignoreBad s

/-- REGISTER_WRITE (R431): a BAR0 write to a register with no row of its own. `CTL.LOCK` with `lock` set, a confirmed
`CTL.RESET` of kind 0x01 or 0x02, `go`, `req` and the image window are the rows' own. -/
def execRegisterWrite (offset size : Nat) (value : Word) (s : State) : Host.Outcome State Fault Refusal :=
  .next (if !(bar0Open s || s.boot.power == .imageWait) then s
    else if s.boot.power == .imageWait && decide (offset < mboxBase) then s
    else if size ≠ 8 ∨ offset % 8 ≠ 0 then ignoreBad s
    else writeReg s offset value)

end Sys2Proof.Machine
end

