-- ==== Sys2Proof/Machine/SyncCommands.lean ====
section
/-!
DEFINITION. Machine/SyncCommands.lean: the sync operations of Table 6-10 as they reach the home, and their timeout (R149).
-/

namespace Sys2Proof.Machine

/-- SYNC_LD (R147). -/
def execSyncLd (r : Req) (s : State) : Host.Outcome State Fault Refusal :=
  .next (settleAll (homeRequest s r (.sync .ld 0 0 0)))

/-- SYNC_ST (R147): writes the value and returns the old one. -/
def execSyncSt (r : Req) (a : Word) (s : State) : Host.Outcome State Fault Refusal :=
  .next (settleAll (homeRequest s r (.sync .st a 0 0)))

/-- SYNC_ADD (R147). -/
def execSyncAdd (r : Req) (a : Word) (s : State) : Host.Outcome State Fault Refusal :=
  .next (settleAll (homeRequest s r (.sync .add a 0 0)))

/-- SYNC_CAS (R147). -/
def execSyncCas (r : Req) (compare swap : Word) (s : State) : Host.Outcome State Fault Refusal :=
  .next (settleAll (homeRequest s r (.sync .cas compare swap 0)))

/-- SYNC_WAIT_GE (R147, R149). -/
def execSyncWaitGe (r : Req) (a : Word) (timeout : BitVec 32) (s : State) : Host.Outcome State Fault Refusal :=
  .next (settleAll (homeRequest s r (.sync .waitGe a 0 timeout.toNat)))

/-- SYNC_WAIT_NE (R147, R149). -/
def execSyncWaitNe (r : Req) (a : Word) (timeout : BitVec 32) (s : State) : Host.Outcome State Fault Refusal :=
  .next (settleAll (homeRequest s r (.sync .waitNe a 0 timeout.toNat)))

/-- SYNC_ACQ (R147, R149). -/
def execSyncAcq (r : Req) (a : Word) (timeout : BitVec 32) (s : State) : Host.Outcome State Fault Refusal :=
  .next (settleAll (homeRequest s r (.sync .acq a 0 timeout.toNat)))

/-- SYNC_ARRIVE (R147, R149). -/
def execSyncArrive (r : Req) (a : Word) (timeout : BitVec 32) (s : State) : Host.Outcome State Fault Refusal :=
  .next (settleAll (homeRequest s r (.sync .arrive a 0 timeout.toNat)))

/-- SYNC_TIMEOUT (R149): the waiter is answered with outcome 1; what its flow held back goes on. -/
def execSyncTimeout (agent : AgentId) (tag : Tag) (s : State) : Host.Outcome State Fault Refusal :=
  .next (match s.sync.waiters.find? (fun w => w.req.agent == agent && w.req.tag == tag && decide (w.until_ ≤ s.time.now)) with
    | some w => settleAll (pump (endWaiter s w))
    | none => s)

end Sys2Proof.Machine
end

