-- ==== Sys2Proof/Machine/Dispatch.lean ====
section
/-!
DEFINITION. Machine/Dispatch.lean: one arm per command, each a direct call of its meaning.
-/

namespace Sys2Proof.Machine

def exec (i : Instr) (s : State) : Host.Outcome State Fault Refusal :=
  match i with
  | .add c d a b => Sys2Proof.Machine.execAdd c d a b s
  | .sub c d a b => Sys2Proof.Machine.execSub c d a b s
  | .and c d a b => Sys2Proof.Machine.execAnd c d a b s
  | .or c d a b => Sys2Proof.Machine.execOr c d a b s
  | .xor c d a b => Sys2Proof.Machine.execXor c d a b s
  | .shl c d a b => Sys2Proof.Machine.execShl c d a b s
  | .shr c d a b => Sys2Proof.Machine.execShr c d a b s
  | .sra c d a b => Sys2Proof.Machine.execSra c d a b s
  | .mul c d a b => Sys2Proof.Machine.execMul c d a b s
  | .slt c d a b => Sys2Proof.Machine.execSlt c d a b s
  | .addi c d a imm => Sys2Proof.Machine.execAddi c d a imm s
  | .andi c d a imm => Sys2Proof.Machine.execAndi c d a imm s
  | .ori c d a imm => Sys2Proof.Machine.execOri c d a imm s
  | .shli c d a imm => Sys2Proof.Machine.execShli c d a imm s
  | .shri c d a imm => Sys2Proof.Machine.execShri c d a imm s
  | .lui c d imm => Sys2Proof.Machine.execLui c d imm s
  | .beq c a b off => Sys2Proof.Machine.execBeq c a b off s
  | .bne c a b off => Sys2Proof.Machine.execBne c a b off s
  | .blt c a b off => Sys2Proof.Machine.execBlt c a b off s
  | .bge c a b off => Sys2Proof.Machine.execBge c a b off s
  | .jal c d off => Sys2Proof.Machine.execJal c d off s
  | .jr c a => Sys2Proof.Machine.execJr c a s
  | .ldw c d a imm => Sys2Proof.Machine.execLdw c d a imm s
  | .ldd c d a imm => Sys2Proof.Machine.execLdd c d a imm s
  | .stw c d a imm => Sys2Proof.Machine.execStw c d a imm s
  | .std c d a imm => Sys2Proof.Machine.execStd c d a imm s
  | .vld c d a imm => Sys2Proof.Machine.execVld c d a imm s
  | .vst c d a imm => Sys2Proof.Machine.execVst c d a imm s
  | .vgth c t d a b p => Sys2Proof.Machine.execVgth c t d a b p s
  | .vadd c t d a b p => Sys2Proof.Machine.execVadd c t d a b p s
  | .vsub c t d a b p => Sys2Proof.Machine.execVsub c t d a b p s
  | .vmul c t d a b p => Sys2Proof.Machine.execVmul c t d a b p s
  | .vfma c t d a b p => Sys2Proof.Machine.execVfma c t d a b p s
  | .vmax c t d a b p => Sys2Proof.Machine.execVmax c t d a b p s
  | .vmin c t d a b p => Sys2Proof.Machine.execVmin c t d a b p s
  | .vdot c t d a b => Sys2Proof.Machine.execVdot c t d a b s
  | .vcvt c t d a b => Sys2Proof.Machine.execVcvt c t d a b s
  | .vexp2 c t d a => Sys2Proof.Machine.execVexp2 c t d a s
  | .vrcp c t d a => Sys2Proof.Machine.execVrcp c t d a s
  | .vrsum c t d a p => Sys2Proof.Machine.execVrsum c t d a p s
  | .vrmax c t d a p => Sys2Proof.Machine.execVrmax c t d a p s
  | .vcmp c t d a b => Sys2Proof.Machine.execVcmp c t d a b s
  | .vsel c t d a b p => Sys2Proof.Machine.execVsel c t d a b p s
  | .vand c d a b => Sys2Proof.Machine.execVand c d a b s
  | .vor c d a b => Sys2Proof.Machine.execVor c d a b s
  | .vxor c d a b => Sys2Proof.Machine.execVxor c d a b s
  | .vshuf c t d a b => Sys2Proof.Machine.execVshuf c t d a b s
  | .vbcast c t d a => Sys2Proof.Machine.execVbcast c t d a s
  | .vext c t d a b => Sys2Proof.Machine.execVext c t d a b s
  | .mvx c f a => Sys2Proof.Machine.execMvx c f a s
  | .xadd c t d a b p => Sys2Proof.Machine.execXadd c t d a b p s
  | .xsave c d a => Sys2Proof.Machine.execXsave c d a s
  | .xload c d a => Sys2Proof.Machine.execXload c d a s
  | .xrnd c t d b => Sys2Proof.Machine.execXrnd c t d b s
  | .recv c d b => Sys2Proof.Machine.execRecv c d b s
  | .recvWake c => Sys2Proof.Machine.execRecvWake c s
  | .send c a b => Sys2Proof.Machine.execSend c a b s
  | .free c a => Sys2Proof.Machine.execFree c a s
  | .mget c t d a b => Sys2Proof.Machine.execMget c t d a b s
  | .mput c t d a b => Sys2Proof.Machine.execMput c t d a b s
  | .transferComplete c id status poison data => Sys2Proof.Machine.execTransferComplete c id status poison data s
  | .msync c t d a b => Sys2Proof.Machine.execMsync c t d a b s
  | .mwait c a => Sys2Proof.Machine.execMwait c a s
  | .fence c => Sys2Proof.Machine.execFence c s
  | .time c d => Sys2Proof.Machine.execTime c d s
  | .csrr c d a b => Sys2Proof.Machine.execCsrr c d a b s
  | .done c => Sys2Proof.Machine.execDone c s
  | .ld r v => Sys2Proof.Machine.execLd r v s
  | .ldSnap r handle => Sys2Proof.Machine.execLdSnap r handle s
  | .rdS r => Sys2Proof.Machine.execRdS r s
  | .rdU r => Sys2Proof.Machine.execRdU r s
  | .st r data => Sys2Proof.Machine.execSt r data s
  | .amo r aop operand => Sys2Proof.Machine.execAmo r aop operand s
  | .cas r compare swap => Sys2Proof.Machine.execCas r compare swap s
  | .memoryResponse p => Sys2Proof.Machine.execMemoryResponse p s
  | .cowCopyDone tile => Sys2Proof.Machine.execCowCopyDone tile s
  | .upg r => Sys2Proof.Machine.execUpg r s
  | .wb r data => Sys2Proof.Machine.execWb r data s
  | .evc r => Sys2Proof.Machine.execEvc r s
  | .lease agent home => Sys2Proof.Machine.execLease agent home s
  | .srNone a => Sys2Proof.Machine.execSrNone a s
  | .srClean a => Sys2Proof.Machine.execSrClean a s
  | .srData a data => Sys2Proof.Machine.execSrData a data s
  | .srWb a => Sys2Proof.Machine.execSrWb a s
  | .leaseExpiry agent => Sys2Proof.Machine.execLeaseExpiry agent s
  | .snoopLossTimer tag agent => Sys2Proof.Machine.execSnoopLossTimer tag agent s
  | .routeLossTimer agent => Sys2Proof.Machine.execRouteLossTimer agent s
  | .promotion gfa => Sys2Proof.Machine.execPromotion gfa s
  | .deadTargetTimer agent tag gen => Sys2Proof.Machine.execDeadTargetTimer agent tag gen s
  | .replayWindowEnd agent tag epoch => Sys2Proof.Machine.execReplayWindowEnd agent tag epoch s
  | .tokenRelease agent room => Sys2Proof.Machine.execTokenRelease agent room s
  | .syncLd r => Sys2Proof.Machine.execSyncLd r s
  | .syncSt r a => Sys2Proof.Machine.execSyncSt r a s
  | .syncAdd r a => Sys2Proof.Machine.execSyncAdd r a s
  | .syncCas r compare swap => Sys2Proof.Machine.execSyncCas r compare swap s
  | .syncWaitGe r a timeout => Sys2Proof.Machine.execSyncWaitGe r a timeout s
  | .syncWaitNe r a timeout => Sys2Proof.Machine.execSyncWaitNe r a timeout s
  | .syncAcq r a timeout => Sys2Proof.Machine.execSyncAcq r a timeout s
  | .syncArrive r a timeout => Sys2Proof.Machine.execSyncArrive r a timeout s
  | .syncTimeout agent tag => Sys2Proof.Machine.execSyncTimeout agent tag s
  | .dataFlit port h pieces => Sys2Proof.Machine.execDataFlit port h pieces s
  | .idleFlit port h => Sys2Proof.Machine.execIdleFlit port h s
  | .retryRequest port h => Sys2Proof.Machine.execRetryRequest port h s
  | .linkControl port h c => Sys2Proof.Machine.execLinkControl port h c s
  | .linkUp port lanes => Sys2Proof.Machine.execLinkUp port lanes s
  | .cutThroughStall port => Sys2Proof.Machine.execCutThroughStall port s
  | .portDown port => Sys2Proof.Machine.execPortDown port s
  | .shadowSetDrop port => Sys2Proof.Machine.execShadowSetDrop port s
  | .flushNotice src entries => Sys2Proof.Machine.execFlushNotice src entries s
  | .mapCommit m => Sys2Proof.Machine.execMapCommit m s
  | .mapAck m => Sys2Proof.Machine.execMapAck m s
  | .mapQuery m => Sys2Proof.Machine.execMapQuery m s
  | .mapAnswer m => Sys2Proof.Machine.execMapAnswer m s
  | .committingTimer tile => Sys2Proof.Machine.execCommittingTimer tile s
  | .moveStart tile porter => Sys2Proof.Machine.execMoveStart tile porter s
  | .movePassEnd tile => Sys2Proof.Machine.execMovePassEnd tile s
  | .moveCloseDone tile => Sys2Proof.Machine.execMoveCloseDone tile s
  | .tierInterval room => Sys2Proof.Machine.execTierInterval room s
  | .layerReleaseTime e => Sys2Proof.Machine.execLayerReleaseTime e s
  | .evacuationDone controller => Sys2Proof.Machine.execEvacuationDone controller s
  | .trayEnumeration tray t1 t2 => Sys2Proof.Machine.execTrayEnumeration tray t1 t2 s
  | .trayLost tray => Sys2Proof.Machine.execTrayLost tray s
  | .epochInstall m => Sys2Proof.Machine.execEpochInstall m s
  | .epochAck room epoch member => Sys2Proof.Machine.execEpochAck room epoch member s
  | .drainCheck room => Sys2Proof.Machine.execDrainCheck room s
  | .drainReport room epoch member => Sys2Proof.Machine.execDrainReport room epoch member s
  | .epochMemberTimeout room member => Sys2Proof.Machine.execEpochMemberTimeout room member s
  | .tailDoorbell ring fn count slots => Sys2Proof.Machine.execTailDoorbell ring fn count slots s
  | .headDoorbell ring fn count => Sys2Proof.Machine.execHeadDoorbell ring fn count s
  | .fetchResume ring slots => Sys2Proof.Machine.execFetchResume ring slots s
  | .staleSlotReread ring slots => Sys2Proof.Machine.execStaleSlotReread ring slots s
  | .mirrorAck e => Sys2Proof.Machine.execMirrorAck e s
  | .mirrorRetry e lost => Sys2Proof.Machine.execMirrorRetry e lost s
  | .progressInterval e => Sys2Proof.Machine.execProgressInterval e s
  | .finalRecord e => Sys2Proof.Machine.execFinalRecord e s
  | .finalRecordAck e => Sys2Proof.Machine.execFinalRecordAck e s
  | .nop e => Sys2Proof.Machine.execNop e s
  | .ringSet e => Sys2Proof.Machine.execRingSet e s
  | .ringDisableDrain e => Sys2Proof.Machine.execRingDisableDrain e s
  | .ringDisableEnd e => Sys2Proof.Machine.execRingDisableEnd e s
  | .compose e x paths => Sys2Proof.Machine.execCompose e x paths s
  | .extentBind e => Sys2Proof.Machine.execExtentBind e s
  | .extentRevoke e => Sys2Proof.Machine.execExtentRevoke e s
  | .domainSet e x => Sys2Proof.Machine.execDomainSet e x s
  | .roomLimit e => Sys2Proof.Machine.execRoomLimit e s
  | .lineClear e => Sys2Proof.Machine.execLineClear e s
  | .snapCut e => Sys2Proof.Machine.execSnapCut e s
  | .snapOpen e => Sys2Proof.Machine.execSnapOpen e s
  | .snapClose e => Sys2Proof.Machine.execSnapClose e s
  | .handleExpiry handle => Sys2Proof.Machine.execHandleExpiry handle s
  | .syncBind e => Sys2Proof.Machine.execSyncBind e s
  | .roomTier e => Sys2Proof.Machine.execRoomTier e s
  | .migrate e => Sys2Proof.Machine.execMigrate e s
  | .weightStream e x => Sys2Proof.Machine.execWeightStream e x s
  | .tileFormat e => Sys2Proof.Machine.execTileFormat e s
  | .caravanOpen e x => Sys2Proof.Machine.execCaravanOpen e x s
  | .caravanRun e x => Sys2Proof.Machine.execCaravanRun e x s
  | .caravanClose e => Sys2Proof.Machine.execCaravanClose e s
  | .sourceReaderDeliver caravan x => Sys2Proof.Machine.execSourceReaderDeliver caravan x s
  | .collOpen e x => Sys2Proof.Machine.execCollOpen e x s
  | .collRun e => Sys2Proof.Machine.execCollRun e s
  | .collClose e => Sys2Proof.Machine.execCollClose e s
  | .collReserve p => Sys2Proof.Machine.execCollReserve p s
  | .collReserveReply ctx switch reason deadline k => Sys2Proof.Machine.execCollReserveReply ctx switch reason deadline k s
  | .collData p => Sys2Proof.Machine.execCollData p s
  | .collPart p leaf => Sys2Proof.Machine.execCollPart p leaf s
  | .collResult p => Sys2Proof.Machine.execCollResult p s
  | .collAck p => Sys2Proof.Machine.execCollAck p s
  | .collCountReport p poisoned => Sys2Proof.Machine.execCollCountReport p poisoned s
  | .collRunEnded p => Sys2Proof.Machine.execCollRunEnded p s
  | .collPromiseTime ctx => Sys2Proof.Machine.execCollPromiseTime ctx s
  | .attend e x => Sys2Proof.Machine.execAttend e x s
  | .attnMerge e x => Sys2Proof.Machine.execAttnMerge e x s
  | .gather e x => Sys2Proof.Machine.execGather e x s
  | .embBag e x => Sys2Proof.Machine.execEmbBag e x s
  | .filterBook e => Sys2Proof.Machine.execFilterBook e s
  | .filterBookEffect room => Sys2Proof.Machine.execFilterBookEffect room s
  | .arrayWrite e x => Sys2Proof.Machine.execArrayWrite e x s
  | .arrayLookup e x => Sys2Proof.Machine.execArrayLookup e x s
  | .arrayScrubStep array at_ => Sys2Proof.Machine.execArrayScrubStep array at_ s
  | .autoLoad e x => Sys2Proof.Machine.execAutoLoad e x s
  | .autoUnload e => Sys2Proof.Machine.execAutoUnload e s
  | .autoScan e x => Sys2Proof.Machine.execAutoScan e x s
  | .bindKeygen e x => Sys2Proof.Machine.execBindKeygen e x s
  | .pkgOpen e x => Sys2Proof.Machine.execPkgOpen e x s
  | .pkgClose e => Sys2Proof.Machine.execPkgClose e s
  | .fwUpdateActivate e x => Sys2Proof.Machine.execFwUpdateActivate e x s
  | .fwUpdateCommitSvn e => Sys2Proof.Machine.execFwUpdateCommitSvn e s
  | .healthRetireUnit e => Sys2Proof.Machine.execHealthRetireUnit e s
  | .healthEnterRetiring e => Sys2Proof.Machine.execHealthEnterRetiring e s
  | .healthTakeOver e m => Sys2Proof.Machine.execHealthTakeOver e m s
  | .faultRead e x => Sys2Proof.Machine.execFaultRead e x s
  | .scrub e upsets kept => Sys2Proof.Machine.execScrub e upsets kept s
  | .tier0DailyScrub upsets kept => Sys2Proof.Machine.execTier0DailyScrub upsets kept s
  | .powerCap e => Sys2Proof.Machine.execPowerCap e s
  | .bucketTick unusedMw => Sys2Proof.Machine.execBucketTick unusedMw s
  | .fixedPowerSample p => Sys2Proof.Machine.execFixedPowerSample p s
  | .capOverrun watts => Sys2Proof.Machine.execCapOverrun watts s
  | .thermalCondition die reading => Sys2Proof.Machine.execThermalCondition die reading s
  | .thermalConditionEnd die reading => Sys2Proof.Machine.execThermalConditionEnd die reading s
  | .thermalTrip die => Sys2Proof.Machine.execThermalTrip die s
  | .unitRetire code index cause => Sys2Proof.Machine.execUnitRetire code index cause s
  | .budgetOverrun c => Sys2Proof.Machine.execBudgetOverrun c s
  | .heartbeat => Sys2Proof.Machine.execHeartbeat s
  | .witnessCheck value => Sys2Proof.Machine.execWitnessCheck value s
  | .twinClaim old => Sys2Proof.Machine.execTwinClaim old s
  | .twinStop => Sys2Proof.Machine.execTwinStop s
  | .takeover m => Sys2Proof.Machine.execTakeover m s
  | .tileRecall gfa => Sys2Proof.Machine.execTileRecall gfa s
  | .timeSyncTick => Sys2Proof.Machine.execTimeSyncTick s
  | .delayRequestTick => Sys2Proof.Machine.execDelayRequestTick s
  | .timeSync port f => Sys2Proof.Machine.execTimeSync port f s
  | .delayRequest port f => Sys2Proof.Machine.execDelayRequest port f s
  | .delayResponse port f => Sys2Proof.Machine.execDelayResponse port f s
  | .timeSourceAnswer source offset => Sys2Proof.Machine.execTimeSourceAnswer source offset s
  | .timeSourceWait => Sys2Proof.Machine.execTimeSourceWait s
  | .holdover => Sys2Proof.Machine.execHoldover s
  | .ptpMessage port k domain f => Sys2Proof.Machine.execPtpMessage port k domain f s
  | .ppsIn tod => Sys2Proof.Machine.execPpsIn tod s
  | .hello port nonce devid version => Sys2Proof.Machine.execHello port nonce devid version s
  | .certs port chain => Sys2Proof.Machine.execCerts port chain s
  | .keyShare port ek => Sys2Proof.Machine.execKeyShare port ek s
  | .keyEncap port ct => Sys2Proof.Machine.execKeyEncap port ct s
  | .verify port signature signatureOk => Sys2Proof.Machine.execVerify port signature signatureOk s
  | .finished port mac agent tSnp => Sys2Proof.Machine.execFinished port mac agent tSnp s
  | .abort port cause => Sys2Proof.Machine.execAbort port cause s
  | .keyUpdate port seq generation => Sys2Proof.Machine.execKeyUpdate port seq generation s
  | .twinKey port gp ekS ct => Sys2Proof.Machine.execTwinKey port gp ekS ct s
  | .sessionTimeout port => Sys2Proof.Machine.execSessionTimeout port s
  | .sessionRetry port => Sys2Proof.Machine.execSessionRetry port s
  | .keyUpdateCount port => Sys2Proof.Machine.execKeyUpdateCount port s
  | .rehandshake24h port => Sys2Proof.Machine.execRehandshake24h port s
  | .macsecRekey port => Sys2Proof.Machine.execMacsecRekey port s
  | .bridgeDataFrame port f => Sys2Proof.Machine.execBridgeDataFrame port f s
  | .bridgeAckFrame port f => Sys2Proof.Machine.execBridgeAckFrame port f s
  | .bridgeControlFrame port f => Sys2Proof.Machine.execBridgeControlFrame port f s
  | .bridgeKeepalive port f => Sys2Proof.Machine.execBridgeKeepalive port f s
  | .bridgeAckTick port => Sys2Proof.Machine.execBridgeAckTick port s
  | .bridgeRto port => Sys2Proof.Machine.execBridgeRto port s
  | .bridgeKeepaliveTick port => Sys2Proof.Machine.execBridgeKeepaliveTick port s
  | .bridgeSilence port => Sys2Proof.Machine.execBridgeSilence port s
  | .cxlMemrd port offset snp tag gen => Sys2Proof.Machine.execCxlMemrd port offset snp tag gen s
  | .cxlMemwr port offset data tag gen => Sys2Proof.Machine.execCxlMemwr port offset data tag gen s
  | .cxlMemwrptl port offset data enables tag gen => Sys2Proof.Machine.execCxlMemwrptl port offset data enables tag gen s
  | .cxlBirsp port shared tag offset => Sys2Proof.Machine.execCxlBirsp port shared tag offset s
  | .biEnable port => Sys2Proof.Machine.execBiEnable port s
  | .ideTimeout port => Sys2Proof.Machine.execIdeTimeout port s
  | .attReq src requests nonce => Sys2Proof.Machine.execAttReq src requests nonce s
  | .getVersion q => Sys2Proof.Machine.execGetVersion q s
  | .getCapabilities q => Sys2Proof.Machine.execGetCapabilities q s
  | .negotiateAlgorithms q => Sys2Proof.Machine.execNegotiateAlgorithms q s
  | .getDigests q => Sys2Proof.Machine.execGetDigests q s
  | .getCertificate q => Sys2Proof.Machine.execGetCertificate q s
  | .challenge q => Sys2Proof.Machine.execChallenge q s
  | .getMeasurements q => Sys2Proof.Machine.execGetMeasurements q s
  | .setCap instanceId cap => Sys2Proof.Machine.execSetCap instanceId cap s
  | .getStatus instanceId => Sys2Proof.Machine.execGetStatus instanceId s
  | .eventAck instanceId serial => Sys2Proof.Machine.execEventAck instanceId serial s
  | .eventResend => Sys2Proof.Machine.execEventResend s
  | .tapInstruction op => Sys2Proof.Machine.execTapInstruction op s
  | .coldStart env mirror => Sys2Proof.Machine.execColdStart env mirror s
  | .bootTimeout => Sys2Proof.Machine.execBootTimeout s
  | .powerLoss => Sys2Proof.Machine.execPowerLoss s
  | .railFault => Sys2Proof.Machine.execRailFault s
  | .sysRstN mirror => Sys2Proof.Machine.execSysRstN mirror s
  | .mgmtPerstN => Sys2Proof.Machine.execMgmtPerstN s
  | .mgmtLinkDown => Sys2Proof.Machine.execMgmtLinkDown s
  | .mgmtLinkUp numVfs => Sys2Proof.Machine.execMgmtLinkUp numVfs s
  | .vfFlr fn => Sys2Proof.Machine.execVfFlr fn s
  | .setUpLock autolock numVfs mirror => Sys2Proof.Machine.execSetUpLock autolock numVfs mirror s
  | .warmReset value mirror => Sys2Proof.Machine.execWarmReset value mirror s
  | .roomReset value => Sys2Proof.Machine.execRoomReset value s
  | .bootImageWrite offset data => Sys2Proof.Machine.execBootImageWrite offset data s
  | .bootImageGo len => Sys2Proof.Machine.execBootImageGo len s
  | .bootCheckDone mirror => Sys2Proof.Machine.execBootCheckDone mirror s
  | .mailboxRequest f len => Sys2Proof.Machine.execMailboxRequest f len s
  | .registerWrite offset size value => Sys2Proof.Machine.execRegisterWrite offset size value s
  | .descriptorDeadline e => Sys2Proof.Machine.execDescriptorDeadline e s
  | .ppsOut => Sys2Proof.Machine.execPpsOut s
  | .cxlIdeKm port authenticated key activate => Sys2Proof.Machine.execCxlIdeKm port authenticated key activate s
  | .mapJournalCompact freed => Sys2Proof.Machine.execMapJournalCompact freed s

end Sys2Proof.Machine
end

