-- ==== Sys2Proof/Machine/Tick.lean ====
section
/-!
DEFINITION. Machine/Tick.lean: what happens at a tick, which is what a step does when no command waits: fabric time
advances, the switch core hands on one packet, each port sends what it can, and collective rounds take what waited for them.
-/

namespace Sys2Proof.Machine

/-- Fabric time advances by 1 ns (R316); one tick of 5,000 goes 2 ns or none while an offset is slewed away: 200 ppm
(R320). -/
def advanceTime (s : State) : State :=
  let t := s.time
  if t.phase < 4999 then { s with time := { t with now := (t.now + 1) % 2 ^ 64, phase := t.phase + 1 } }
  else if 0 < t.slew then
    { s with time := { t with now := (t.now + 2) % 2 ^ 64, phase := 0, slew := t.slew - 1, offset := t.offset + 1 } }
  else if t.slew < 0 then { s with time := { t with phase := 0, slew := t.slew + 1, offset := t.offset - 1 } }
  else { s with time := { t with now := (t.now + 1) % 2 ^ 64, phase := 0 } }

/-- The 1PPS output falls 1 ms after its rising edge (R456). -/
def ppsFall (s : State) : State :=
  match s.time.ppsHigh with
  | some t => if t ≤ s.time.now then { s with time := { s.time with ppsHigh := none }, out := s.out ++ [.pin 0 false] } else s
  | none => s

/-- The switch core takes the oldest packet that this switch's own units have formed. -/
def routeHead (s : State) : State :=
  match s.fab.outbox with
  | [] => s
  | p :: l => route { s with fab := { s.fab with outbox := l } } p

/-- The islands' copies of fabric time have seen it: after a backward step they hold until it passes them (R13). -/
def seeTime (s : State) : State := { s with time := { s.time with copy := max s.time.copy s.time.now } }

/-- What goes out again by itself: requests of the switch's own agent and of device-role ports (R35, R75). -/
def goAgain (s : State) : State :=
  (s.fab.flex.map (fun q => q.id)).foldl flexAgain (issueAsks (reissueFlushed s))

/-- One tick. With the clocks stopped nothing happens. -/
def tick (s : State) : State :=
  if s.boot.power = .off then s
  else
    let s := ppsFall (advanceTime (seeTime s))
    if isRunning s then settleOwn (bridgeAll (egressAll (routeHead (goAgain s)))) else s

end Sys2Proof.Machine
end

