-- ==== Sys2Proof/WellFormed.lean ====
section
/-!
DEFINITION. WellFormed.lean: the operands that a command can have. A request, a packet or a descriptor that the switch itself
checks and answers with a status is well formed: only what no sender could put on the wire, no unit of the package could name,
or no core word could encode is not.
-/

namespace Sys2Proof

/-- A core that exists (R215). -/
def coreOk (c : CoreId) : Bool := decide (c.cluster < 144) && decide (c.core < 32)

/-- A fabric port (R23). -/
def fabPortOk (p : Nat) : Bool := decide (p < 128)

/-- A bridge port, 128 to 143 of a command (R405). -/
def brgPortOk (p : Nat) : Bool := decide (128 ≤ p) && decide (p < 144)

/-- A flex port, 144 to 159 of a command (R401). -/
def flexPortOk (p : Nat) : Bool := decide (144 ≤ p) && decide (p < 160)

/-- A port with a link session: fabric or bridge (R375). -/
def sessionPortOk (p : Nat) : Bool := decide (p < 144)

/-- A ledger entry number (Table 15-2). -/
def entryOk (e : Nat) : Bool := decide (e < 262144)

/-- A die of the package: CD0 to CD3, MD0, MD1, ID0, ID1 (R1). -/
def dieOk (d : Nat) : Bool := decide (d < 8)

/-- The lanes a link comes up with: a fabric port on 2, 4 or 8, a bridge or flex port on 1 too (R47, R405, Table 19-6). -/
def lanesOk (n : Nat) : Bool := n == 1 || n == 2 || n == 4 || n == 8

/-- A packet's payload fits its length field of 9 bits, in whole slots, and its hops field of 5 (R58). -/
def packetOk (p : Packet) : Bool := decide (p.data.length ≤ 16 * p.len) && decide (p.len < 512) && decide (p.hops < 32)

/-- The packets of a bridge frame (R406). -/
def frameOk (f : BridgeFrame) : Bool := f.packets.all packetOk

/-- The slots that the pieces of one flit take. -/
def pieceSlots : List Piece → Nat
  | [] => 0
  | .more n :: l => n + pieceSlots l
  | .start _ n :: l => n + pieceSlots l

/-- A data flit carries at most 25 slots of packets (R48), and each packet in it is well formed. -/
def piecesOk (l : List Piece) : Bool :=
  decide (pieceSlots l ≤ 25) && l.all fun x => match x with
    | .more _ => true
    | .start p _ => packetOk p

/-- The eight initial credits of a link (R56). -/
def linkCtlOk : LinkCtl → Bool
  | .credits c => c.length == 8
  | .linkDown => true

/-- The bytes of a store agree with its byte count (Table 4-3). -/
def storeOk (r : Req) (data : List Byte) : Bool := data.length == r.nb.toNat + 1

/-- A whole line (Table 5-3). -/
def lineOk (data : List Byte) : Bool := data.length == 64

/-- A window access of BAR0 is 4 B or 8 B (R430); other sizes reach the switch too and are counted. -/
def accessOk (size : Nat) : Bool := size == 1 || size == 2 || size == 4 || size == 8

/-- A function of the management port: the PF, 0, and VFs 1 to 63 (R398). -/
def functionOk (f : Nat) : Bool := decide (f < 64)

/-- The function that a doorbell of the management port names (R201). -/
def fnOk : Option Nat → Bool
  | none => true
  | some f => functionOk f

/-- A type of Table 10-10 that Table 10-9 allows an instruction, given as the list of those. -/
def typeOk (c : CoreId) (l : List Nat) (t : Ty) : Bool := coreOk c && l.contains t.toNat

/-- Whether a command has operands that it can have. -/
def wellFormed (i : Instr) : Bool :=
  match i with
  | .add c _ _ _ | .sub c _ _ _ | .and c _ _ _ | .or c _ _ _ | .xor c _ _ _ | .shl c _ _ _ | .shr c _ _ _ | .sra c _ _ _
  | .mul c _ _ _ | .slt c _ _ _ | .addi c _ _ _ | .andi c _ _ _ | .ori c _ _ _ | .shli c _ _ _ | .shri c _ _ _ | .lui c _ _
  | .beq c _ _ _ | .bne c _ _ _ | .blt c _ _ _ | .bge c _ _ _ | .jal c _ _ | .jr c _ | .ldw c _ _ _ | .ldd c _ _ _
  | .stw c _ _ _ | .std c _ _ _ | .vld c _ _ _ | .vst c _ _ _ | .vand c _ _ _ | .vor c _ _ _ | .vxor c _ _ _ | .mvx c _ _
  | .xsave c _ _ | .xload c _ _ | .free c _ | .mwait c _ | .fence c | .time c _ | .csrr c _ _ _ | .done c => coreOk c
  | .vadd c t _ _ _ _ | .vsub c t _ _ _ _ | .vmul c t _ _ _ _ | .vfma c t _ _ _ _ | .vmax c t _ _ _ _ | .vmin c t _ _ _ _ =>
    typeOk c [0x0, 0x1, 0x2, 0x6, 0x7] t
  | .vcmp c t _ _ _ => typeOk c [0x0, 0x1, 0x2, 0x6, 0x7] t
  | .vdot c t _ _ _ => typeOk c [0x1, 0x2, 0x3, 0x4, 0x5, 0x7, 0x8, 0x9, 0xA, 0xB] t
  | .vcvt c t _ _ b => typeOk c [0x0, 0x1, 0x2, 0x3, 0x4, 0x5, 0x6, 0x7, 0x8] t && decide (b.toNat % 16 < 9)
  | .vexp2 c t _ _ | .vrcp c t _ _ => typeOk c [0x0] t
  | .vrsum c t _ _ _ => typeOk c [0x0, 0x1, 0x2, 0x6] t
  | .vgth c t _ _ _ _ => typeOk c [0x0, 0x6] t
  | .vrmax c t _ _ _ => typeOk c [0x0, 0x6] t
  | .vsel c t _ _ _ _ => typeOk c [0x0, 0x1, 0x2, 0x3, 0x4, 0x5, 0x6, 0x7, 0x8] t
  | .vshuf c t _ _ _ => typeOk c [0x0, 0x1, 0x3, 0x5] t
  | .vbcast c t _ _ => typeOk c [0x0, 0x1, 0x3, 0x5] t
  | .vext c t _ _ _ => typeOk c [0x0, 0x1, 0x3, 0x5] t
  | .xadd c t _ _ _ _ => typeOk c [0x0, 0x1, 0x2, 0x3, 0x4, 0x6, 0x7] t
  | .xrnd c t _ _ => typeOk c [0x0, 0x1, 0x2, 0x3, 0x4, 0x6, 0x7] t
  | .recv c _ b => coreOk c && decide (b.toNat < 8)
  | .send c _ b => coreOk c && decide (b.toNat < 4)
  | .mget c t _ _ _ | .msync c t _ _ _ => coreOk c && decide (t.toNat < 8)
  | .mput c t _ _ _ => coreOk c && decide (t.toNat < 8) && decide (t.toNat % 2 = 0)
  | .recvWake c | .budgetOverrun c | .transferComplete c .. => coreOk c
  | .st r data => storeOk r data
  | .wb _ data | .srData _ data => lineOk data
  | .memoryResponse p => packetOk p
  | .dataFlit p _ l => fabPortOk p && piecesOk l
  | .idleFlit p _ | .retryRequest p _ | .cutThroughStall p => fabPortOk p
  | .linkControl p _ c => fabPortOk p && linkCtlOk c
  | .linkUp p n => decide (p < 160) && lanesOk n && (decide (128 ≤ p) || decide (2 ≤ n))
  | .portDown p | .shadowSetDrop p => decide (p < 160)
  | .moveStart _ k => decide (k < 64)
  | .evacuationDone k => decide (k < 16)
  | .trayEnumeration n _ _ | .trayLost n => decide (n < 64)
  | .tailDoorbell _ f _ _ => fnOk f
  | .headDoorbell _ f _ => fnOk f
  | .mirrorAck e | .mirrorRetry e _ | .progressInterval e | .finalRecord e | .finalRecordAck e | .layerReleaseTime e
  | .descriptorDeadline e | .nop e | .ringSet e | .ringDisableDrain e | .ringDisableEnd e | .compose e _ _ | .extentBind e
  | .extentRevoke e | .domainSet e _ | .roomLimit e | .lineClear e | .snapCut e | .snapOpen e | .snapClose e | .syncBind e
  | .roomTier e | .migrate e | .weightStream e _ | .tileFormat e | .caravanOpen e _ | .caravanRun e _ | .caravanClose e
  | .collOpen e _ | .collRun e | .collClose e | .attend e _ | .attnMerge e _ | .gather e _ | .embBag e _ | .filterBook e
  | .arrayWrite e _ | .arrayLookup e _ | .autoLoad e _ | .autoUnload e | .autoScan e _ | .bindKeygen e _ | .pkgOpen e _
  | .pkgClose e | .fwUpdateActivate e _ | .fwUpdateCommitSvn e | .healthRetireUnit e | .healthEnterRetiring e
  | .healthTakeOver e _ | .faultRead e _ | .scrub e _ _ | .powerCap e => entryOk e
  | .sourceReaderDeliver k _ => decide (k < 256)
  | .arrayScrubStep a p => decide (a < 8) && decide (p.slot < 1048576) && p.errors.all (fun x => decide (x.slot < 1048576))
  | .fixedPowerSample p => p.rails.length == 8 && p.temps.length == 8
  | .thermalCondition d _ | .thermalConditionEnd d _ | .thermalTrip d => dieOk d
  | .timeSync p _ | .delayRequest p _ | .delayResponse p _ => fabPortOk p
  | .ptpMessage p _ _ _ => brgPortOk p
  | .hello p _ _ _ | .certs p _ | .keyShare p _ | .keyEncap p _ | .verify p _ _ | .finished p _ _ _ | .abort p _
  | .twinKey p _ _ _ | .sessionTimeout p | .sessionRetry p | .rehandshake24h p => sessionPortOk p
  | .keyUpdate p _ _ | .keyUpdateCount p => fabPortOk p
  | .bridgeDataFrame p f | .bridgeAckFrame p f | .bridgeControlFrame p f | .bridgeKeepalive p f => brgPortOk p && frameOk f
  | .macsecRekey p | .bridgeAckTick p | .bridgeRto p | .bridgeKeepaliveTick p | .bridgeSilence p => brgPortOk p
  | .cxlMemwr p _ data _ _ => flexPortOk p && lineOk data
  | .cxlMemwrptl p _ data _ _ _ => flexPortOk p && lineOk data
  | .cxlMemrd p _ _ _ _ | .cxlBirsp p _ _ _ | .biEnable p | .ideTimeout p | .cxlIdeKm p _ _ _ => flexPortOk p
  | .mgmtLinkUp n | .setUpLock _ n _ => functionOk n
  | .vfFlr f => functionOk f && f != 0
  | .mailboxRequest f n => functionOk f && decide (n ≤ 1024)
  | .registerWrite _ size _ => accessOk size
  | .ld .. | .ldSnap .. | .rdS .. | .rdU .. | .amo .. | .cas .. | .cowCopyDone .. | .upg .. | .evc .. | .lease ..
  | .srNone .. | .srClean .. | .srWb .. | .leaseExpiry .. | .snoopLossTimer .. | .routeLossTimer .. | .promotion ..
  | .deadTargetTimer .. | .replayWindowEnd .. | .tokenRelease .. | .syncLd .. | .syncSt .. | .syncAdd .. | .syncCas ..
  | .syncWaitGe .. | .syncWaitNe .. | .syncAcq .. | .syncArrive .. | .syncTimeout .. | .flushNotice .. | .mapCommit ..
  | .mapAck .. | .mapQuery .. | .mapAnswer .. | .committingTimer .. | .movePassEnd .. | .moveCloseDone .. | .tierInterval ..
  | .epochInstall .. | .epochAck .. | .drainCheck .. | .drainReport .. | .epochMemberTimeout .. | .fetchResume ..
  | .staleSlotReread .. | .handleExpiry .. | .collReserve .. | .collReserveReply .. | .collData .. | .collPart ..
  | .collResult .. | .collAck .. | .collCountReport .. | .collRunEnded .. | .collPromiseTime .. | .filterBookEffect ..
  | .tier0DailyScrub .. | .bucketTick ..  | .capOverrun .. | .unitRetire .. | .heartbeat
  | .witnessCheck .. | .twinClaim .. | .twinStop | .takeover .. | .tileRecall .. | .timeSyncTick | .delayRequestTick
  | .timeSourceAnswer .. | .timeSourceWait | .holdover | .ppsIn .. | .attReq .. | .getVersion .. | .getCapabilities ..
  | .negotiateAlgorithms .. | .getDigests .. | .getCertificate .. | .challenge .. | .getMeasurements .. | .setCap ..
  | .getStatus .. | .eventAck .. | .eventResend | .tapInstruction .. | .coldStart .. | .bootTimeout | .powerLoss | .railFault
  | .sysRstN .. | .mgmtPerstN | .mgmtLinkDown | .warmReset .. | .roomReset .. | .bootImageWrite .. | .bootImageGo ..
  | .bootCheckDone .. | .ppsOut | .mapJournalCompact .. => true

end Sys2Proof
end

