-- ==== Sys2Proof/Certificates/Slice0/Obligations.lean ====
section
/-!
DEFINITION. Certificates/Slice0/Obligations.lean: the statements about the model that are to be proved.
-/

namespace Sys2Proof.Machine

/-- Core `c` is `k`, and it executes instructions. -/
def Active (s : State) (c : CoreId) (k : Core) : Prop := coreOf s c = some k ∧ k.st = .running

/-- From `s` to `t` core `c` becomes `k'`; no other core and no other part of the state changes. -/
def OnlyCore (s t : State) (c : CoreId) (k' : Core) : Prop :=
  coreOf t c = some k' ∧ (∀ c', c' ≠ c → coreOf t c' = coreOf s c') ∧
    t = { s with engine := { s.engine with cores := t.engine.cores } }

/-- Command `i` answers a next state in which core `c` is `k'` and nothing else has changed. -/
def Gives (s : State) (i : Instr) (c : CoreId) (k' : Core) : Prop := ∃ t, exec i s = .next t ∧ OnlyCore s t c k'

/-- Command `i` answers a next state with property `P`. -/
def Answers (s : State) (i : Instr) (P : State → Prop) : Prop := ∃ t, exec i s = .next t ∧ P t

/-- Nothing stands that an event could let go on: no descriptor, drain, domain change, commit, move, stream or evacuation, and no
partner whose heartbeat is looked at. -/
def Quiet (s : State) : Prop :=
  s.ledger.entries = [] ∧ (∀ x ∈ s.maps.exts, x.st = .bound) ∧ s.rooms.changes = [] ∧ (∀ x ∈ s.rooms.rooms, x.commit = none) ∧
    (∀ m ∈ movers s, m.mig = .settled) ∧ s.maps.streams = [] ∧ s.maps.evac = [] ∧ twinPresent s = false

/-- Command `i` brings `s` to `u`, and then whatever waited for that goes on (`settleAll`); where nothing stands, `u` is the next
state. -/
def Brings (s : State) (i : Instr) (u : State) : Prop :=
  exec i s = .next (settleAll u) ∧ (Quiet s → exec i s = .next u)

/-- Nothing on the caravan of a cluster goes on of itself, even if one more of its cores is done: it has no run, or every stage is
programmed and open, and waits for more than one core. -/
def StagesStand (s : State) (cluster : Nat) : Prop :=
  ∀ v i, stageAt s cluster = some (v, i) → v.run = none ∨ (caravanOf s v.id = some v ∧ v.stages ≠ [] ∧ ∀ g ∈ v.stages, g.builtin = none ∧ g.closed = false ∧
    (g.doneCores.filter fun c => g.clusters.contains c.cluster).length + 1 < g.clusters.length * g.usedCores)

/-- Command `i` brings `s` to `u`, and then the caravan of the cluster goes on (`settleAt`); where nothing on it goes on of itself,
`u` is the next state. -/
def BringsAt (s : State) (i : Instr) (cluster : Nat) (u : State) : Prop :=
  exec i s = .next (settleAt u cluster) ∧ (StagesStand s cluster → exec i s = .next u)

/-- No memory request of this switch's own agent waits, is outstanding or has an unused answer, and no move holds a tag. -/
def OwnIdle (s : State) : Prop :=
  s.own.asks = [] ∧ s.own.sent = [] ∧ s.own.got = [] ∧ ∀ m ∈ movers s, m.tag = none

/-- Command `i` brings `s` to `u`, and then the home serves what waits (`pump`); where no request waits and no snoop or recall is under
way, only the leases of agents that hold no line end. -/
def Pumps (s : State) (i : Instr) (u : State) : Prop :=
  exec i s = .next (pump u) ∧
    (s.dir.waiting = [] → s.dir.txns = [] → s.dir.recalls = [] → exec i s = .next (dropLeases u))

/-- The mirror's place stays as it is, and its writes leave as such: it is not the partner's memory, to which they are requests. -/
def MirrorStands (s : State) : Prop := mirrorTarget s = s.ledger.target ∧ s.ledger.target ≠ 1

/-- From `s` to `u` the switch has formed the packets `ps`, in this order after those it had formed. -/
def Formed (s u : State) (ps : List Packet) : Prop := u.fab.outbox = s.fab.outbox ++ ps

end Sys2Proof.Machine

open Sys2Proof Sys2Proof.Machine

/-- R215, Table 10-1: a core's registers hold what is written to them; s0 reads zero and p0 all ones whatever is written. -/
def Obligations.CoreRegistersHoldWhatIsWritten : Prop :=
  ∀ (k : Core) (r q : Reg) (x : Word) (y : BitVec 256) (m n : PReg),
    (k.setS r x).sreg q = (if q = 0 then 0 else if q = r then x else k.sreg q) ∧
    (k.setP m x).preg n = (if n = 0 then BitVec.allOnes 64 else if n = m then x else k.preg n) ∧
    (k.setV r y).vreg q = (if q = r then y else k.vreg q) ∧
    (k.setS 0 x) = k ∧ (k.setP 0 x) = k


/-- Table 10-9: the scalar class on any running core: sd takes the result, the pc goes to the next instruction, and nothing else in the
switch changes. A destination of s0 writes nothing (`Core.setS`). The immediate is sign-extended for ADDI and LUI and zero-extended for
ANDI and ORI. The model's own choices in it: log entry 19. -/
def Obligations.ScalarResults : Prop :=
  (∀ (s : State) (c : CoreId) (k : Core) (d a b : Reg), Active s c k →
    Gives s (.add c d a b) c (k.setS d (k.sreg a + k.sreg b)).next ∧
    Gives s (.sub c d a b) c (k.setS d (k.sreg a - k.sreg b)).next ∧
    Gives s (.and c d a b) c (k.setS d (k.sreg a &&& k.sreg b)).next ∧
    Gives s (.or c d a b) c (k.setS d (k.sreg a ||| k.sreg b)).next ∧
    Gives s (.xor c d a b) c (k.setS d (k.sreg a ^^^ k.sreg b)).next ∧
    Gives s (.shl c d a b) c (k.setS d (k.sreg a <<< (k.sreg b).extractLsb' 0 6)).next ∧
    Gives s (.shr c d a b) c (k.setS d (k.sreg a >>> (k.sreg b).extractLsb' 0 6)).next ∧
    Gives s (.sra c d a b) c (k.setS d ((k.sreg a).sshiftRight ((k.sreg b).extractLsb' 0 6).toNat)).next ∧
    Gives s (.mul c d a b) c (k.setS d (k.sreg a * k.sreg b)).next ∧
    Gives s (.slt c d a b) c (k.setS d (if (k.sreg a).slt (k.sreg b) then 1 else 0)).next) ∧
  (∀ (s : State) (c : CoreId) (k : Core) (d a : Reg) (i : BitVec 16), Active s c k →
    Gives s (.addi c d a i) c (k.setS d (k.sreg a + i.signExtend 64)).next ∧
    Gives s (.andi c d a i) c (k.setS d (k.sreg a &&& i.zeroExtend 64)).next ∧
    Gives s (.ori c d a i) c (k.setS d (k.sreg a ||| i.zeroExtend 64)).next ∧
    Gives s (.shli c d a i) c (k.setS d (k.sreg a <<< i.extractLsb' 0 6)).next ∧
    Gives s (.shri c d a i) c (k.setS d (k.sreg a >>> i.extractLsb' 0 6)).next ∧
    Gives s (.lui c d i) c (k.setS d (i.signExtend 64 <<< 16)).next)

/-- Table 10-9: a branch goes to its own pc plus four times its offset where its condition holds and to the next instruction
where it does not, and writes no register; JAL writes pc + 4 and JR goes to sa with its two low bits cleared, where that lies
in the code. The model's own choices in it: log entry 19. -/
def Obligations.BranchResults : Prop :=
  ∀ (s : State) (c : CoreId) (k : Core) (d a b : Reg) (i : BitVec 16) (j : BitVec 21), Active s c k →
    (let taken : Core := { k with pc := k.pc + 4 * i }
     Gives s (.beq c a b i) c (if k.sreg a = k.sreg b then taken else k.next) ∧
     Gives s (.bne c a b i) c (if k.sreg a = k.sreg b then k.next else taken) ∧
     Gives s (.blt c a b i) c (if (k.sreg a).slt (k.sreg b) then taken else k.next) ∧
     Gives s (.bge c a b i) c (if (k.sreg a).slt (k.sreg b) then k.next else taken)) ∧
    Gives s (.jal c d j) c { k.setS d (k.pc.zeroExtend 64 + 4) with pc := k.pc + 4 * j.extractLsb' 0 16 } ∧
    ((k.sreg a).toNat / 4 * 4 < codeLenOf s c →
      Gives s (.jr c a) c { k with pc := BitVec.ofNat 16 ((k.sreg a).toNat / 4 * 4) })


/-- R216 and Table 10-9: loads from local addresses, aligned down to their own width; LDW zero-extends, VLD and VST count their immediate
in 32 B, and VGTH loads 32 bits for each element whose predicate bit is set. A store writes its width in bytes from the address aligned
down, at the keys that `storeKey` gives, and no other byte of any store; a store into the code region writes nothing and sets flag [4].
The model's own choices in it: log entries 3 and 19. -/
def Obligations.LocalAccesses : Prop :=
  (∀ (s : State) (c : CoreId) (k : Core) (d a b : Reg) (p : PReg) (i : BitVec 16), Active s c k →
    (let at_ (g : Word) (n : Nat) : Nat := leVal (localRead s c (BitVec.ofNat 64 (g.toNat / n * n)) n)
     Gives s (.ldw c d a i) c (k.setS d (BitVec.ofNat 64 (at_ (k.sreg a + i.signExtend 64) 4))).next ∧
     Gives s (.ldd c d a i) c (k.setS d (BitVec.ofNat 64 (at_ (k.sreg a + i.signExtend 64) 8))).next ∧
     Gives s (.vld c d a i) c (k.setV d (BitVec.ofNat 256 (at_ (k.sreg a + 32 * i.signExtend 64) 32))).next ∧
     (∀ t : Ty, t = 0 ∨ t = 6 → ∃ v : BitVec 256, Gives s (.vgth c t d a b p) c (k.setV d v).next ∧
       ∀ e, e < 8 → elem v 32 e = if (k.preg p).getLsbD e
         then at_ (k.sreg a + BitVec.ofNat 64 (elem (k.vreg b) 32 e)) 4 else elem (k.vreg d) 32 e))) ∧
  (∀ (s : State) (c : CoreId) (k : Core) (d a : Reg) (i : BitVec 16), Active s c k → Memory.wf s.engine.stores = true →
    (let stored (o : Instr) (g : Word) (n : Nat) (v : Nat) : Prop :=
       let g' : Word := BitVec.ofNat 64 (g.toNat / n * n)
       let key (j : Nat) : Nat := storeKey c (g' + BitVec.ofNat 64 j)
       if inCode s c g' then Gives s o c { k with flags := k.flags ||| 0x10, pc := k.pc + 4 }
       else Answers s o fun t =>
         t = { s with engine := { s.engine with cores := t.engine.cores, stores := t.engine.stores } } ∧
         coreOf t c = some k.next ∧ (∀ c', c' ≠ c → coreOf t c' = coreOf s c') ∧
         (∀ x, (∀ j, j < n → key j ≠ x) → readByte t.engine.stores x = readByte s.engine.stores x) ∧
         (∀ j, j < n → inCode s c (g' + BitVec.ofNat 64 j) = false →
           readByte t.engine.stores (key j) = BitVec.ofNat 8 (v / 256 ^ j))
     stored (.stw c d a i) (k.sreg a + i.signExtend 64) 4 (k.sreg d).toNat ∧
     stored (.std c d a i) (k.sreg a + i.signExtend 64) 8 (k.sreg d).toNat ∧
     stored (.vst c d a i) (k.sreg a + 32 * i.signExtend 64) 32 (k.vreg d).toNat))

/-- Table 10-9 and R244, R245: the elementwise operations. Every element whose predicate bit is set takes the operation's result
of the elements of va, vb (and vd), every other element keeps its value, flags are only added, and nothing else changes.
The model's own choices in it: log entry 19. -/
def Obligations.VectorElementwise : Prop :=
  ∀ (s : State) (c : CoreId) (k : Core) (t : Ty) (d a b : Reg) (p : PReg), Active s c k →
    (let does (o : Instr) (f : Nat → Nat → Nat → Nat) : Prop :=
       ∃ k' : Core, Gives s o c k' ∧ k' = { k with v := k'.v, flags := k'.flags, pc := k.pc + 4 } ∧
         (∀ r, r ≠ d → k'.vreg r = k.vreg r) ∧ k'.flags &&& k.flags = k.flags ∧ k'.flags &&& 0x78 = k.flags &&& 0x78 ∧
         ∀ i, i < 256 / tyWidth t.toNat → elem (k'.vreg d) (tyWidth t.toNat) i =
           if (k.preg p).getLsbD i then
             f (elem (k.vreg d) (tyWidth t.toNat) i) (elem (k.vreg a) (tyWidth t.toNat) i) (elem (k.vreg b) (tyWidth t.toNat) i)
               % 2 ^ tyWidth t.toNat
           else elem (k.vreg d) (tyWidth t.toNat) i
     t.toNat ∈ [0x0, 0x1, 0x2, 0x6, 0x7] →
       does (.vadd c t d a b p) (fun _ x y => (elAdd t.toNat x y).1) ∧
       does (.vsub c t d a b p) (fun _ x y => (elSub t.toNat x y).1) ∧
       does (.vmul c t d a b p) (fun _ x y => (elMul t.toNat x y).1) ∧
       does (.vfma c t d a b p) (fun z x y => (elFma t.toNat z x y).1) ∧
       does (.vmax c t d a b p) (fun _ x y => (elMaxMin t.toNat true x y).1) ∧
       does (.vmin c t d a b p) (fun _ x y => (elMaxMin t.toNat false x y).1))


/-- Table 10-9 with R246, R247 and R248: VDOT, VCVT, VEXP2, VRCP and the two reductions write vd and add flags; VCMP writes a predicate
register and adds flags. VSEL, the bitwise forms, VSHUF, VBCAST and VEXT raise no flag. What each register takes is said for each. The
half of a register that VCVT takes or writes is log entry 20. -/
def Obligations.VectorReductionsAndMoves : Prop :=
  (∀ (s : State) (c : CoreId) (k : Core) (t : Ty) (d a b : Reg) (p : PReg), Active s c k →
    (let w := tyWidth t.toNat
     let toV (o : Instr) (P : BitVec 256 → Prop) : Prop :=
       ∃ (v : BitVec 256) (f : BitVec 7), Gives s o c { k.setV d v with flags := k.flags ||| f, pc := k.pc + 4 } ∧ P v
     let chosenElems : List Nat := ((List.range (256 / w)).filter fun i => (k.preg p).getLsbD i).map fun i => elem (k.vreg a) w i
     (t.toNat ∈ [0x1, 0x2, 0x3, 0x4, 0x5, 0x7, 0x8, 0x9, 0xA, 0xB] → toV (.vdot c t d a b) fun v => ∀ i, i < 8 →
       (let g := 32 / w
        let q := if t.toNat = 0xB then 2 else 1
        elem v 32 i = (elDot t.toNat (scaleByte k.xa (i * g / 32 + a.toNat * q)) (scaleByte k.xb (i * g / 32 + b.toNat * q))
          (elem (k.vreg d) 32 i) ((List.range g).map fun m =>
            (elem (k.vreg a) w (i * g + m), elem (k.vreg b) w (i * g + m)))).1 % 2 ^ 32)) ∧
     (t.toNat < 9 → b.toNat % 16 < 9 → toV (.vcvt c t d a b) fun v =>
       (let wd := tyWidth (b.toNat % 16)
        let half := b.toNat / 16
        (∀ i, i < min (256 / w) (256 / wd) →
          elem v wd (i + if wd < w then half * (128 / wd) else 0) =
            (elCvt t.toNat (b.toNat % 16) (elem (k.vreg a) w (i + if w < wd then half * (128 / w) else 0))).1 % 2 ^ wd) ∧
        (wd < w → half = 1 → v.extractLsb' 0 128 = (k.vreg d).extractLsb' 0 128) ∧
        (wd < w → half = 0 → v.extractLsb' 128 128 = 0))) ∧
     (t = 0 → toV (.vexp2 c t d a) fun v => ∀ i, i < 8 → elem v 32 i = (elExp2 (elem (k.vreg a) 32 i)).1 % 2 ^ 32) ∧
     (t = 0 → toV (.vrcp c t d a) fun v => ∀ i, i < 8 → elem v 32 i = (elRcp (elem (k.vreg a) 32 i)).1 % 2 ^ 32) ∧
     (t.toNat ∈ [0x0, 0x1, 0x2, 0x6] → toV (.vrsum c t d a p) fun v => v.toNat = (elSum t.toNat chosenElems).1 % 2 ^ 32) ∧
     (t.toNat ∈ [0x0, 0x6] → toV (.vrmax c t d a p) fun v =>
       v.toNat = (elMaxList t.toNat chosenElems).1 % 2 ^ 32) ∧
     (t.toNat ∈ [0x0, 0x1, 0x2, 0x6, 0x7] → ∃ (x : Word) (f : BitVec 7),
       Gives s (.vcmp c t d a b) c { k.setP (d.extractLsb' 0 3) x with flags := k.flags ||| f, pc := k.pc + 4 } ∧
       ∀ i, i < 64 → x.getLsbD i = (decide (i < 256 / w) &&
         (elCmp t.toNat (d.toNat / 8) (elem (k.vreg a) w i) (elem (k.vreg b) w i)).1)))) ∧
  (∀ (s : State) (c : CoreId) (k : Core) (t : Ty) (d a b : Reg) (p : PReg), Active s c k →
    (let w := tyWidth t.toNat
     let toV (o : Instr) (f : Nat → Nat) : Prop :=
       ∃ v : BitVec 256, Gives s o c (k.setV d v).next ∧ ∀ i, i < 256 / w → elem v w i = f i
     Gives s (.vand c d a b) c (k.setV d (k.vreg a &&& k.vreg b)).next ∧
     Gives s (.vor c d a b) c (k.setV d (k.vreg a ||| k.vreg b)).next ∧
     Gives s (.vxor c d a b) c (k.setV d (k.vreg a ^^^ k.vreg b)).next ∧
     (t.toNat < 9 → toV (.vsel c t d a b p) fun i =>
       if (k.preg p).getLsbD i then elem (k.vreg a) w i else elem (k.vreg b) w i) ∧
     (t.toNat ∈ [0x0, 0x1, 0x3, 0x5] →
       toV (.vshuf c t d a b) (fun i => elem (k.vreg a) w (elem (k.vreg b) w i % (256 / w))) ∧
       toV (.vbcast c t d a) (fun _ => (k.sreg a).toNat % 2 ^ w) ∧
       Gives s (.vext c t d a b) c
         (k.setS d (BitVec.ofNat 64 (elem (k.vreg a) w ((k.sreg b).toNat % (256 / w))))).next)))

/-- Table 10-9, R13, R250 and R253: MVX writes a scale register, TIME gives the cluster's copy of fabric time, CSRR a control
register (and with a nonzero a field and CSR 7 clears every flag), XADD adds each element whose predicate bit is set to its
accumulator, and XRND rounds one. The model's own choices in it: log entries 9 and 23. -/
def Obligations.ScaleTimeAndAccumulators : Prop :=
  ∀ (s : State) (c : CoreId) (k : Core) (t : Ty) (d a b : Reg) (p : PReg), Active s c k →
    Gives s (.mvx c 0 a) c { k with xa := k.sreg a, pc := k.pc + 4 } ∧
    Gives s (.mvx c 1 a) c { k with xb := k.sreg a, pc := k.pc + 4 } ∧
    (∃ n, n ≤ 8 ∧ Gives s (.time c d) c (k.setS d (BitVec.ofNat 64 (max s.time.copy s.time.now + n - 4))).next) ∧
    Gives s (.csrr c d a b) c
      ({ k with flags := if b = 7 ∧ a ≠ 0 then 0 else k.flags }.setS d (csrValue s k b.toNat)).next ∧
    (t.toNat ∈ [0x0, 0x1, 0x2, 0x3, 0x4, 0x6, 0x7] →
      (let w := tyWidth t.toNat
       let one (x : Acc) (i : Reg) : Acc × Bool :=
         if (k.preg p).getLsbD i.toNat then accAdd x t.toNat (elem (k.vreg a) w (i.toNat % (256 / w))) (k.flags.getLsbD 2)
         else (x, false)
       Gives s (.xadd c t d a b p) c { k with
         acc0 := (one k.acc0 d).1, acc1 := (one k.acc1 b).1, pc := k.pc + 4
         flags := if (one k.acc0 d).2 || (one k.acc1 b).2 then k.flags ||| 1 else k.flags }) ∧
      ∃ f : BitVec 7, Gives s (.xrnd c t d b) c
        { k.setS d (BitVec.ofNat 64 (accRound (if b.toNat % 2 = 0 then k.acc0 else k.acc1) t.toNat).1) with
          flags := k.flags ||| f, pc := k.pc + 4 })

/-- R240: a core word with a type, a queue or an output that Table 10-9 does not allow is no instruction; its command is refused
and leaves the machine where it is. The model's own choices in it: log entry 7. -/
def Obligations.InvalidEncodingsRefused : Prop :=
  ∀ (s : State) (c : CoreId) (t : Ty) (d a b : Reg) (p : PReg),
    (t.toNat ∉ [0x0, 0x1, 0x2, 0x6, 0x7] →
      exec (.vadd c t d a b p) s = .refused .invalidEncoding ∧ exec (.vsub c t d a b p) s = .refused .invalidEncoding ∧
      exec (.vmul c t d a b p) s = .refused .invalidEncoding ∧ exec (.vfma c t d a b p) s = .refused .invalidEncoding ∧
      exec (.vmax c t d a b p) s = .refused .invalidEncoding ∧ exec (.vmin c t d a b p) s = .refused .invalidEncoding ∧
      exec (.vcmp c t d a b) s = .refused .invalidEncoding) ∧
    (t.toNat ∉ [0x0, 0x6] →
      exec (.vgth c t d a b p) s = .refused .invalidEncoding ∧ exec (.vrmax c t d a p) s = .refused .invalidEncoding) ∧
    (t ≠ 0 → exec (.vexp2 c t d a) s = .refused .invalidEncoding ∧ exec (.vrcp c t d a) s = .refused .invalidEncoding) ∧
    (t.toNat ∉ [0x0, 0x1, 0x3, 0x5] →
      exec (.vshuf c t d a b) s = .refused .invalidEncoding ∧ exec (.vbcast c t d a) s = .refused .invalidEncoding ∧
      exec (.vext c t d a b) s = .refused .invalidEncoding) ∧
    (8 < t.toNat → exec (.vcvt c t d a b) s = .refused .invalidEncoding ∧ exec (.vsel c t d a b p) s = .refused .invalidEncoding ∧
      exec (.mget c t d a b) s = .refused .invalidEncoding ∧ exec (.msync c t d a b) s = .refused .invalidEncoding) ∧
    (t = 0 ∨ t = 6 ∨ 11 < t.toNat → exec (.vdot c t d a b) s = .refused .invalidEncoding) ∧
    (t.toNat ∉ [0x0, 0x1, 0x2, 0x6] → exec (.vrsum c t d a p) s = .refused .invalidEncoding) ∧
    (t.toNat ∉ [0x0, 0x1, 0x2, 0x3, 0x4, 0x6, 0x7] →
      exec (.xadd c t d a b p) s = .refused .invalidEncoding ∧ exec (.xrnd c t d b) s = .refused .invalidEncoding) ∧
    (t.toNat % 2 = 1 ∨ 8 ≤ t.toNat → exec (.mput c t d a b) s = .refused .invalidEncoding) ∧
    (8 ≤ b.toNat → exec (.recv c d b) s = .refused .invalidEncoding) ∧
    (4 ≤ b.toNat → exec (.send c a b) s = .refused .invalidEncoding)




/-- R242 and Table 10-3: RECV and RECV_WAKE take what the queue holds, as a handle that the core then holds, or wait for that queue and that
register. SEND and FREE of a buffer that the core does not hold set flag [6] and do nothing else; of one that it holds, they give it up,
and SEND sends the record under the label (n, k) and counts k on. Afterwards the caravan settles; where nothing on it goes on of itself
the state named is the next one. The model's own choices in it: log entries 25 and 26. -/
def Obligations.RecordsAreTakenAndSent : Prop :=
  (∀ (s : State) (c : CoreId) (k : Core) (d b : Reg), coreOf s c = some k → b.toNat < 8 →
    (k.st = .running →
      (let s1 := updCore s c Core.next
       (∀ s2, receive s1 k b.toNat d = some s2 → BringsAt s (.recv c d b) c.cluster s2) ∧
       (receive s1 k b.toNat d = none → ∃ u, BringsAt s (.recv c d b) c.cluster u ∧
         OnlyCore s u c { k with pc := k.pc + 4, st := .recvWait b.toNat d }))) ∧
    (∀ q, k.st = .recvWait q d → ∀ s2, receive s k q d = some s2 → BringsAt s (.recvWake c) c.cluster s2) ∧
    (∀ v i who r s2, stageAt s c.cluster = some (v, i) → b.toNat < 4 → findInput s v i k b.toNat = .record who r →
      receive s k b.toNat d = some s2 → ∃ k', coreOf s2 c = some k' ∧ k'.st = .running ∧ k'.held = k.held ++ [r.handle] ∧
        k'.s = (k.setS d r.handle).s ∧ k'.pc = k.pc ∧
        (b = 0 → k'.n = r.n ∧ k'.k = 0 ∧ k'.flags.getLsbD 2 = handlePoison r.handle) ∧ (b ≠ 0 → k'.n = k.n ∧ k'.flags = k.flags))) ∧
  (∀ (s : State) (c : CoreId) (k : Core) (a b : Reg) (v : Caravan) (i : Nat), Active s c k → b.toNat < 4 →
    stageAt s c.cluster = some (v, i) →
    (heldHandle k (k.sreg a) = none →
      Gives s (.send c a b) c { k with flags := k.flags ||| 0x40, pc := k.pc + 4 } ∧
      Gives s (.free c a) c { k with flags := k.flags ||| 0x40, pc := k.pc + 4 }) ∧
    (∀ h, heldHandle k (k.sreg a) = some h →
      (let u := dropHeld (updCore s c Core.next) c h
       coreOf u c = some { k with pc := k.pc + 4, held := k.held.erase h } ∧
       BringsAt s (.free c a) c.cluster u ∧
       BringsAt s (.send c a b) c.cluster (updCore (sendRecord u v.id i b.toNat k.n k.k
           (handlePoison (k.sreg a) || k.flags.getLsbD 2)
           (readBytes s.engine.stores ((c.cluster * 33 + 32) * 2 ^ 22 + handleAddr h) (handleLen (k.sreg a))))
         c fun k => { k with k := k.k + 1 }))))

/-- R97, R231, R232 and R465: MGET and MPUT put a transfer of at most 4,096 B on the core's list and go on. Of a switch with no other memory
request of its own, whose addresses lie at another home: MGET forms one LD of 64 B for each line that its bytes touch, MPUT one ST for the
part of each line, in address order, in the transfer's class, under the tags of the cluster's engine from slot 0 on. MSYNC forms its one
operation, with sb in bytes 0 to 7 of its payload, and waits for the response.
The model's own choices in it: log entries 11, 12, 24, 84 and 132. -/
def Obligations.TransfersIssue : Prop :=
  ∀ (s : State) (c : CoreId) (k : Core) (t : Ty) (d a b : Reg), Active s c k → t.toNat < 8 →
    (let n := min 4096 (k.sreg b).toNat
     let x (get : Bool) (vol : Bool) (data : List Byte) : Transfer :=
       { id := k.nextTransfer, isGet := get, isSync := false, localAddr := (k.sreg d).extractLsb' 0 32, gfa := k.sreg a
         bytes := n, volatile := vol, ocls := BitVec.ofNat 2 (t.toNat / 2), data := data }
     let tagAt (i : Nat) : Tag := BitVec.ofNat 20 (c.cluster * 512 + i)
     let away (l : Nat) : Prop := isHome s (homeOf (lineGfa l)) = false
     let frame (u : State) : Prop := (∀ c', c' ≠ c → coreOf u c' = coreOf s c') ∧ u.pool = s.pool ∧ u.maps = s.maps ∧ u.dir = s.dir ∧
       u.ledger = s.ledger ∧ u.engine = { s.engine with cores := u.engine.cores } ∧ u.fab = { s.fab with outbox := u.fab.outbox }
     let listed (u : State) (y : Transfer) : Prop :=
       coreOf u c = some { k with pc := k.pc + 4, transfers := k.transfers ++ [y], nextTransfer := k.nextTransfer + 1 }
     OwnIdle s →
       ((∀ l ∈ linesOf (k.sreg a) n, away l) → (t.toNat % 2 = 1 ∨ ∀ l ∈ linesOf (k.sreg a) n, lineBuffered s c.cluster l = none) →
         Answers s (.mget c t d a b) fun u => listed u (x true (t.toNat % 2 == 1) []) ∧ frame u ∧ ∃ ps, Formed s u ps ∧
           ps.map (fun p => (p.opcode, p.w2, p.room, p.ocls, p.tag, p.w3.extractLsb' 56 7)) = (linesOf (k.sreg a) n).zipIdx.map fun y =>
             (0x00, lineGfa y.1, runRoom s c, BitVec.ofNat 2 (t.toNat / 2), tagAt y.2, 63)) ∧
       ((∀ l ∈ linesOf (k.sreg a) n, away l) → t.toNat % 2 = 0 →
         Answers s (.mput c t d a b) fun u => listed u (x false false (localRead s c (k.sreg d) n)) ∧ frame u ∧ ∃ ps, Formed s u ps ∧
           ps.flatMap (fun p => p.data) = localRead s c (k.sreg d) n ∧ ps.length = (linesOf (k.sreg a) n).length ∧
           ∀ i p, ps[i]? = some p → p.opcode = 0x08 ∧ p.room = runRoom s c ∧ p.ocls = BitVec.ofNat 2 (t.toNat / 2) ∧ p.tag = tagAt i ∧
             lineKey p.w2 * 64 + 64 ≥ p.w2.toNat + p.data.length ∧
             p.w2 = k.sreg a + BitVec.ofNat 64 ((ps.take i).flatMap fun y => y.data).length) ∧
       (isHome s (homeOf (k.sreg a)) = false → ∃ u, Brings s (.msync c t d a b) u ∧ frame u ∧
         ∃ k', coreOf u c = some k' ∧ k'.st = .msync k.nextTransfer d ∧ k'.pc = k.pc + 4 ∧ k'.s = k.s ∧
           k'.transfers.length = k.transfers.length + 1 ∧ ∃ p, Formed s u [p] ∧ p.opcode = 0x30 + BitVec.ofNat 8 t.toNat ∧ p.w2 = k.sreg a ∧
           p.room = runRoom s c ∧ p.tag = tagAt 0 ∧ p.data.take 8 = leBytes 8 (k.sreg b).toNat ∧
           (t ≠ 3 → p.data = leBytes 8 (k.sreg b).toNat ++ List.replicate 8 0)))


/-- R230, R231 and R232: MWAIT with n in sa waits until every transfer but the last n is complete, FENCE until every one is; each goes on at
once where that holds already. TRANSFER_COMPLETE of a transfer whose answers are all there takes it off the core's list: an MGET's bytes
enter the store at its local address, a status other than 0x00 sets flag [3] and for an MGET flag [2], an MSYNC's value goes to its
register; and it lets a core go on whose wait has ended. While an answer is missing nothing happens.
The model's own choices in it: log entries 11 and 24. -/
def Obligations.TransfersWaitAndComplete : Prop :=
  (∀ (s : State) (c : CoreId) (k : Core) (a : Reg), Active s c k →
    Gives s (.mwait c a) c
      (if ∀ x ∈ k.transfers, k.nextTransfer ≤ x.id + (k.sreg a).toNat then k.next
       else { k with pc := k.pc + 4, st := .mwait (k.sreg a).toNat }) ∧
    Gives s (.fence c) c (if k.transfers = [] then k.next else { k with pc := k.pc + 4, st := .fence })) ∧
  (∀ (s : State) (c : CoreId) (k : Core) (x : Transfer) (st : Byte) (p : Bool) (data : List Byte),
    coreOf s c = some k → k.transfers.find? (fun y => y.id == x.id) = some x →
    (awaits s (.transfer c x.id) = true → exec (.transferComplete c x.id st p data) s = .next s) ∧
    (awaits s (.transfer c x.id) = false →
      (let got := transferGot s c x.id
       let bad : Bool := got.any fun y => y.status != 0x00
       ∃ u k', BringsAt s (.transferComplete c x.id st p data) c.cluster u ∧ coreOf u c = some k' ∧ (∀ c', c' ≠ c → coreOf u c' = coreOf s c') ∧
         u.pool = s.pool ∧ u.fab = s.fab ∧ u.maps = s.maps ∧ k'.transfers = k.transfers.filter (fun y => y.id != x.id) ∧
         k'.pc = k.pc ∧ (k.st = .fence → k'.transfers = [] → k'.st = .running) ∧ (k.st = .running → k'.st = .running) ∧
         (x.isSync = false → k'.s = k.s) ∧ (x.isGet = false → u.engine.stores = s.engine.stores) ∧
         (x.isSync = false → x.isGet = false → k'.flags = if bad then k.flags ||| 0x08 else k.flags) ∧
         (x.isSync = false → x.isGet = true → k'.flags &&& 0x0C = if bad then 0x0C else k.flags &&& 0x0C) ∧
         (x.isSync = true → ∀ d, k.st = .msync x.id d → k'.st = .running ∧ (k'.flags = if bad then k.flags ||| 0x08 else k.flags) ∧
           ∀ y l, got = y :: l → k'.s = (k.setS d (BitVec.ofNat 64 (leVal (y.data.take 8)))).s) ∧
         (x.isGet = true → x.isSync = false → x.bytes ≤ 4096 → Memory.wf s.engine.stores = true → ∀ i < x.bytes,
           inCode s c (x.localAddr.setWidth 64 + BitVec.ofNat 64 i) = false →
           readByte u.engine.stores (storeKey c (x.localAddr.setWidth 64 + BitVec.ofNat 64 i)) = gotByte got (x.gfa + BitVec.ofNat 64 i)))))

/-- R219, R224, R229 and R230: DONE, and JR to an offset at or beyond the code length, end the core's work in the run: it idles, it
holds no buffer, its registers stand, and its stage counts it as done, once. A budget overrun restarts the core at its stage's entry
with every register zero and flag [5] set, its next label past those of the records sent on its connected outputs, and counts one
overrun of the run. Both settle the caravan; where nothing on it goes on of itself the state named is the next one. The model's own
choices in it: log entry 28. -/
def Obligations.CoreEndsAndRestarts : Prop :=
  ∀ (s : State) (c : CoreId) (k : Core) (a : Reg) (v : Caravan) (i : Nat), coreOf s c = some k →
    stageAt s c.cluster = some (v, i) → caravanOf s v.id = some v →
    (k.st = .running →
      (∃ u, BringsAt s (.done c) c.cluster u ∧ u.pool = s.pool ∧ u.ledger = s.ledger ∧ (∀ c', c' ≠ c → coreOf u c' = coreOf s c') ∧
        coreOf u c = some { k with st := .idle, held := [] } ∧
        ∃ w, caravanOf u v.id = some w ∧ w.stages = v.stages.mapIdx fun j g =>
          if j = i then { g with doneCores := if g.doneCores.contains c then g.doneCores else g.doneCores ++ [c] } else g) ∧
      (codeLenOf s c ≤ (k.sreg a).toNat / 4 * 4 → exec (.jr c a) s = exec (.done c) s)) ∧
    (inBudget k = true → ∃ u, BringsAt s (.budgetOverrun c) c.cluster u ∧ (∀ c', c' ≠ c → coreOf u c' = coreOf s c') ∧ ∃ k', coreOf u c = some k' ∧
      k'.st = .running ∧ k'.flags = 0x20 ∧ k'.s = Vector.replicate 32 0 ∧ k'.v = Vector.replicate 32 0 ∧
      k'.p = Vector.replicate 8 0 ∧ k'.held = [] ∧ k'.n = k.n ∧ k'.k = k.k + (connectedOuts v i).length ∧
      (∀ g, v.stages[i]? = some g → k'.pc = BitVec.ofNat 16 g.entry) ∧
      ∃ w, caravanOf u v.id = some w ∧ w.run.map (fun r => r.overruns) = v.run.map fun r => r.overruns + 1)

/-- R240, Tables 10-8 and 10-9: for every core instruction whose core exists and whose type, queue and output Table 10-9 allows,
its word decodes to it: no operand at any value is dropped. -/
def Obligations.CoreWordsDecodeBack : Prop :=
  ∀ (i : Instr) (w : BitVec 32), wellFormed i = true → encodeCoreWord i = some w →
    ∃ c : CoreId, coreOk c = true ∧ decodeCoreWord c w = some i

/-- R240: a word decodes to at most what it encodes: whatever a word decodes to has that word, so that no two words give one
instruction and no nonzero reserved field is accepted. -/
def Obligations.DecodedWordsEncodeBack : Prop :=
  ∀ (c : CoreId) (w : BitVec 32) (i : Instr), decodeCoreWord c w = some i → encodeCoreWord i = some w

/-- Tables 10-8 and 10-9: words written out bit by bit from the manual's formats, and what they decode to; the all-zero word
and words with a nonzero unused field are invalid (R240). -/
def Obligations.CoreWordsFromTheTables : Prop :=
  ∀ c : CoreId,
    decodeCoreWord c 0b000001_00011_00001_00010_000_0000_0001#32 = some (.sub c 3 1 2) ∧
    decodeCoreWord c 0b000010_00101_00100_1111111111111111#32 = some (.addi c 5 4 0xFFFF) ∧
    decodeCoreWord c 0b001100_00001_111111111111111111100#32 = some (.jal c 1 0x1FFFFC) ∧
    decodeCoreWord c 0b010011_00111_01000_0000000000010000#32 = some (.std c 7 8 16) ∧
    decodeCoreWord c 0b100000_00001_00010_00011_101_0010_0011#32 = some (.vfma c 2 1 2 3 5) ∧
    decodeCoreWord c 0b100001_00001_00010_00011_000_0011_0011#32 = some (.vshuf c 3 1 2 3) ∧
    decodeCoreWord c 0b101000_00100_00101_01001_010_0110_0000#32 = some (.xadd c 6 4 5 9 2) ∧
    decodeCoreWord c 0b110000_00110_00000_00111_000_0000_0000#32 = some (.recv c 6 7) ∧
    decodeCoreWord c 0b111000_00000_00000_00000_000_0000_0010#32 = some (.done c) ∧
    decodeCoreWord c 0#32 = none ∧
    decodeCoreWord c 0b000001_00011_00001_00010_001_0000_0001#32 = none ∧
    decodeCoreWord c 0b100000_00001_00010_00011_101_1001_0011#32 = none

/-- R251 and Table 11-2: XSAVE writes and XLOAD reads the 64 B state, whose fields lie as the table has them: value, count, mode, seven
flag bits, and zeros. 64 zero bytes are the empty accumulator; a mode above 4 or a nonzero reserved field loads the empty accumulator and
sets flag [0]. -/
def Obligations.AccumulatorsAreSavedAndLoaded : Prop :=
  (∀ x : Acc, x.mode ≤ 4 →
    (let b := accBits x
     b.extractLsb' 0 320 = x.value ∧ b.extractLsb' 320 64 = x.count ∧ b.extractLsb' 384 8 = BitVec.ofNat 8 x.mode ∧
     b.getLsbD 392 = x.nan ∧ b.getLsbD 393 = x.pinf ∧ b.getLsbD 394 = x.ninf ∧ b.getLsbD 395 = x.nz ∧ b.getLsbD 396 = x.poison ∧
     b.getLsbD 397 = x.limit ∧ b.getLsbD 398 = x.mismatch ∧ b.extractLsb' 399 113 = 0) ∧ accOf (accBits x) = (x, false)) ∧
  accOf 0 = ({}, false) ∧
  (∀ b : BitVec 512, 4 < (b.extractLsb' 384 8).toNat ∨ b.extractLsb' 399 113 ≠ 0 → accOf b = ({}, true)) ∧
  (∀ b : BitVec 512, (accOf b).2 = false → accBits (accOf b).1 = b) ∧
  ∀ (s : State) (c : CoreId) (k : Core) (d a : Reg), Active s c k →
    (let g : Word := BitVec.ofNat 64 ((k.sreg a).toNat / 64 * 64)
     let r := accOf (BitVec.ofNat 512 (leVal (localRead s c g 64)))
     let key (j : Nat) : Nat := storeKey c (g + BitVec.ofNat 64 j)
     Gives s (.xload c d a) c { k.setAcc (d.toNat % 2) r.1 with flags := if r.2 then k.flags ||| 1 else k.flags, pc := k.pc + 4 } ∧
     (Memory.wf s.engine.stores = true →
       if inCode s c g then Gives s (.xsave c d a) c { k with flags := k.flags ||| 0x10, pc := k.pc + 4 }
       else Answers s (.xsave c d a) fun t =>
         t = { s with engine := { s.engine with cores := t.engine.cores, stores := t.engine.stores } } ∧
         coreOf t c = some k.next ∧ (∀ c', c' ≠ c → coreOf t c' = coreOf s c') ∧
         (∀ x, (∀ j, j < 64 → key j ≠ x) → readByte t.engine.stores x = readByte s.engine.stores x) ∧
         (∀ j, j < 64 → inCode s c (g + BitVec.ofNat 64 j) = false →
           readByte t.engine.stores (key j) = BitVec.ofNat 8 ((accBits (k.acc (d.toNat % 2))).toNat / 256 ^ j))))

namespace Sys2Proof.Machine

/-- The width of an accumulator mode in bits, and the most contributions that it counts (Table 11-1). -/
def modeRow : Nat → Nat × Nat
  | 1 => (320, 2 ^ 42)
  | 2 => (96, 2 ^ 55)
  | 3 => (64, 2 ^ 31)
  | _ => (64, 2 ^ 32)

/-- A state that is empty, or of mode `m`, which is one of Table 11-1. -/
def OfMode (m : Nat) (x : Acc) : Prop := x = {} ∨ x.mode = m ∧ 1 ≤ m ∧ m ≤ 4

end Sys2Proof.Machine

/-- R252: two states of one mode merge exactly: values and counts are added, the flag bits are ORed, and the limit bit is set if the count
passes the limit. Merging the empty state changes nothing, merging two modes sets the mismatch bit, and merging states of one mode is
associative and commutative. -/
def Obligations.MergesAreExact : Prop :=
  (∀ x y : Acc, 1 ≤ x.mode → x.mode ≤ 4 → y.mode = x.mode →
    (let w := accMerge x y
     (- 2 ^ ((modeRow x.mode).1 - 1) ≤ x.value.toInt + y.value.toInt → x.value.toInt + y.value.toInt < 2 ^ ((modeRow x.mode).1 - 1) →
       w.value.toInt = x.value.toInt + y.value.toInt) ∧
     (x.count.toNat + y.count.toNat < 2 ^ 64 → w.count.toNat = x.count.toNat + y.count.toNat) ∧
     w.mode = x.mode ∧ w.nan = (x.nan || y.nan) ∧ w.pinf = (x.pinf || y.pinf) ∧ w.ninf = (x.ninf || y.ninf) ∧ w.nz = (x.nz || y.nz) ∧
     w.poison = (x.poison || y.poison) ∧ w.mismatch = (x.mismatch || y.mismatch) ∧
     w.limit = (x.limit || y.limit || decide ((modeRow x.mode).2 < x.count.toNat + y.count.toNat)))) ∧
  (∀ x : Acc, accMerge x {} = x ∧ accMerge {} x = x) ∧
  (∀ x y : Acc, x ≠ {} → y ≠ {} → x.mode ≠ y.mode → (accMerge x y).mismatch = true) ∧
  (∀ (m : Nat) (x y z : Acc), OfMode m x → OfMode m y → OfMode m z →
    accMerge x y = accMerge y x ∧ accMerge (accMerge x y) z = accMerge x (accMerge y z))

namespace Sys2Proof.Machine

/-- What a command that carries a request asks of the home. -/
def requestOf : Instr → Option (Req × Op)
  | .ld r v => some (r, .ld v)
  | .ldSnap r h => some (r, .ldSnap h)
  | .rdS r => some (r, .rdS)
  | .rdU r => some (r, .rdU)
  | .upg r => some (r, .upg)
  | .st r d => some (r, .st d)
  | .amo r k a => some (r, .amo k a)
  | .cas r c w => some (r, .cas c w)
  | .syncLd r => some (r, .sync .ld 0 0 0)
  | .syncSt r a => some (r, .sync .st a 0 0)
  | .syncAdd r a => some (r, .sync .add a 0 0)
  | .syncCas r c w => some (r, .sync .cas c w 0)
  | .syncWaitGe r a t => some (r, .sync .waitGe a 0 t.toNat)
  | .syncWaitNe r a t => some (r, .sync .waitNe a 0 t.toNat)
  | .syncAcq r a t => some (r, .sync .acq a 0 t.toNat)
  | .syncArrive r a t => some (r, .sync .arrive a 0 t.toNat)
  | _ => none

/-- Command `i` answers a next state: `u` after the extents, epochs and streams that its work lets go on have settled (and, for
a store, after the partner's mirror header has been looked at); `u` itself where nothing stands that could go on. -/
def Settles (s : State) (i : Instr) (u : State) : Prop :=
  (exec i s = .next (settleAll u) ∨ exec i s = .next (seeBeat (settleAll u))) ∧ (Quiet s → exec i s = .next u)

/-- The home is running, is home of the address, has nothing waiting and no snoop or recall under way, no stored unit of its pool has
changed cells, and it knows no earlier request of the same agent and tag; the request is not its own agent's, and nothing of its flow
waits. -/
def Calm (s : State) (r : Req) : Prop :=
  isRunning s = true ∧ isHome s (homeOf r.gfa) = true ∧ dedupe s r = .new ∧ isOwn s r = false ∧ s.pool.upsets = [] ∧
    s.dir.waiting = [] ∧ s.dir.recalls = [] ∧ s.dir.heldWb = [] ∧ s.dir.txns = [] ∧ (∀ w ∈ s.sync.waiters, sameFlow w.req r = false) ∧
    (∀ t, tileOf s (tileKey r.gfa) = some t → t.unrecalled = false)

/-- The request passes the admission of R27, its extent is not sealed against it, and no migration holds it. -/
def Admitted (s : State) (r : Req) (o : Op) : Prop :=
  malformed r o = false ∧ admitCode s r.agent r.room r.epoch r.gfa (isCounted s r) = 0x00 ∧
    sealStatus s r.gfa (isIntent o) = 0x00 ∧ tileHolds s r o = false

/-- From `s` to `u` the switch has formed exactly one packet: the response to `r` with this opcode, status, grant and data. -/
def Sent (s u : State) (r : Req) (opcode status : BitVec 8) (grant : BitVec 2) (data : List Byte) : Prop :=
  ∃ p : Packet, u.fab.outbox = s.fab.outbox ++ [p] ∧ p.opcode = opcode ∧ p.dst = r.agent ∧ p.tag = r.tag ∧ p.room = r.room ∧
    p.epoch = currentEpoch s r.room ∧ p.ocls = (if 0x60 ≤ opcode.toNat then 0 else r.ocls) ∧ p.w2 = r.gfa ∧ p.w3.extractLsb' 56 8 = status ∧ p.w3.extractLsb' 52 4 = r.gen ∧
    p.w3.extractLsb' 50 2 = grant ∧ p.data = data

/-- The directory as it matters to coherence: each entry's line, state and pointers. -/
def holders (s : State) : List (Nat × DirSt × List AgentId) := s.dir.entries.map fun e => (e.line, e.st, e.ptrs)

/-- Bytes `a` to `a + l.length - 1` read as `l`, every other byte as before. -/
def Stores (m m' : List Host.Cell) (a : Nat) (l : List Byte) : Prop :=
  ∀ x, readByte m' x = if a ≤ x ∧ x < a + l.length then l.getD (x - a) 0 else readByte m x

end Sys2Proof.Machine

/-- R114 and R143: a load that no agent holds U is answered from the home with the bytes of its address, and records no holder;
a load of a snapshot is answered from the tile retained for it, or from the head where none is. Neither changes any byte.
The model's own choices in it: log entry 41. -/
def Obligations.LoadsReadTheHome : Prop :=
  ∀ (s : State) (r : Req) (v : Bool) (h : BitVec 16), Calm s r → readStatus s r.gfa = 0x00 →
    (Admitted s r (.ld v) → (∀ e, entryOf s (lineKey r.gfa) = some e → e.st ≠ .unique) →
      ∃ u, Settles s (.ld r v) u ∧ Sent s u r 0x40 0x00 0 (readBytes s.pool.mem r.gfa.toNat (r.nb.toNat + 1)) ∧
        u.pool = s.pool ∧ holders u = holders s ∧ u.dir.waiting = []) ∧
    (∀ x, Admitted s r (.ldSnap h) →
      s.maps.handles.find? (fun x => x.h == h && x.room == r.room && x.exts.contains (extKey r.gfa)) = some x →
      ∃ u, Settles s (.ldSnap r h) u ∧ u.pool = s.pool ∧ holders u = holders s ∧
        (∀ y, retainedFor s x.cut (tileKey r.gfa) = some y → y.released = false → y.lost = false → placeLost s y.res r.gfa = false →
          retainedMark y (lineKey r.gfa) = none → Sent s u r 0x40 0x00 0 (readBytes y.cells r.gfa.toNat (r.nb.toNat + 1))) ∧
        (retainedFor s x.cut (tileKey r.gfa) = none →
          Sent s u r 0x40 0x00 0 (readBytes s.pool.mem r.gfa.toNat (r.nb.toNat + 1))))

/-- R81, Table 4-4: a write to a line that nobody holds is performed at the home: ST stores its bytes, an atomic its result, CAS
its swap value where the old value equals its compare value; an atomic answers the old value. No other byte changes.
The model's own choices in it: log entry 98. -/
def Obligations.WritesStoreAtTheHome : Prop :=
  ∀ (s : State) (r : Req), Calm s r → readStatus s r.gfa = 0x00 → entryOf s (lineKey r.gfa) = none →
    Memory.wf s.pool.mem = true →
    (let n := r.nb.toNat + 1
     let m := leVal (readBytes s.pool.mem r.gfa.toNat n)
     (∀ d : List Byte, d.length = n → Admitted s r (.st d) → ∃ u, Settles s (.st r d) u ∧ Sent s u r 0x42 0x00 0 [] ∧
       Stores s.pool.mem u.pool.mem r.gfa.toNat d ∧ holders u = holders s) ∧
     (∀ k a, Admitted s r (.amo k a) → ∃ u, Settles s (.amo r k a) u ∧ Sent s u r 0x43 0x00 0 (leBytes 16 m) ∧
       Stores s.pool.mem u.pool.mem r.gfa.toNat (leBytes n (amoValue k n m (a.toNat % 2 ^ (8 * n)))) ∧ holders u = holders s) ∧
     (∀ c w, Admitted s r (.cas c w) → ∃ u, Settles s (.cas r c w) u ∧ Sent s u r 0x43 0x00 0 (leBytes 16 m) ∧
       (if m = c.toNat % 2 ^ (8 * n) then Stores s.pool.mem u.pool.mem r.gfa.toNat (leBytes n w.toNat)
        else u.pool.mem = s.pool.mem) ∧ holders u = holders s))


/-- R114 and R118, Table 5-4: a line that nobody holds is granted S to RD_S and U to RD_U and UPG, with its 64 B, and its new entry
records the requester alone. A write-intent request that finds other sharers answers nothing yet: it holds the line, and SNP_INV goes to
every other sharer, whose answers it awaits; the only sharer is made the owner at once, without data. No byte changes.
The model's own choices in it: log entries 34 and 35. -/
def Obligations.GrantsFollowTheDirectory : Prop :=
  (∀ (s : State) (r : Req), Calm s r → readStatus s r.gfa = 0x00 → entryOf s (lineKey r.gfa) = none →
    setHasRoom s (lineKey r.gfa) = true →
    (let granted (i : Instr) (st : DirSt) (g : BitVec 2) : Prop := ∃ u, Settles s i u ∧
       Sent s u r 0x41 0x00 g (readBytes s.pool.mem (lineKey r.gfa * 64) 64) ∧ u.pool = s.pool ∧
       holders u = holders s ++ [(lineKey r.gfa, st, [r.agent])]
     (Admitted s r .rdS → granted (.rdS r) .shared 0b01) ∧
     (Admitted s r .rdU → granted (.rdU r) .unique 0b10) ∧
     (Admitted s r .upg → granted (.upg r) .unique 0b10))) ∧
  (∀ (s : State) (r : Req) (e : DirEntry) (i : Instr) (o : Op), Calm s r → requestOf i = some (r, o) → o = .rdU ∨ o = .upg →
    Admitted s r o → readStatus s r.gfa = 0x00 → entryOf s (lineKey r.gfa) = some e → e.st = .shared → sliceHasRoom s r.gfa = true →
    (e.ptrs = [r.agent] → ∃ u, Settles s i u ∧ Sent s u r 0x68 0x00 0 [] ∧ u.pool = s.pool ∧
      (∃ e', entryOf u (lineKey r.gfa) = some e' ∧ e'.st = .unique ∧ e'.ptrs = [r.agent]) ∧ u.dir.txns = []) ∧
    (e.ptrs.filter (fun a => a != r.agent) ≠ [] → ∃ u, Settles s i u ∧ u.pool = s.pool ∧ holders u = holders s ∧
      (∃ t, u.dir.txns = [t] ∧ t.line = lineKey r.gfa ∧ t.kind = .inv ∧ t.awaited = e.ptrs.filter (fun a => a != r.agent)) ∧
      ∃ l : List Packet, u.fab.outbox = s.fab.outbox ++ l ∧ l.map (fun p => (p.opcode, p.dst, p.w2)) =
        (e.ptrs.filter (fun a => a != r.agent)).map fun a => (0x70, a, lineGfa (lineKey r.gfa))))


/-- R27, R35, R80, R83, R103 and R104: a request that is malformed is answered 0x09, else one that fails admission with its status (0x03 or
0x08), with the error value (none with 0x08). A duplicate of an open request joins it: it is answered when that one is, once more; a
duplicate of an answered request gets the stored response again with the room's current epoch. Nothing is read, written or granted.
The model's own choices in it: log entries 33 and 38. -/
def Obligations.DeniedAndDuplicateRequestsChangeNothing : Prop :=
  (∀ (s : State) (i : Instr) (r : Req) (o : Op), requestOf i = some (r, o) → Calm s r →
    (let st : BitVec 8 := match o with
       | .sync _ _ _ _ => if malformed r o then 0x09 else syncAdmit s r
       | _ => if malformed r o then 0x09 else admitCode s r.agent r.room r.epoch r.gfa (isCounted s r)
     st ≠ 0x00 → ∃ u, Settles s i u ∧
       Sent s u r (rspOpcode o) st 0 (if st = 0x08 then [] else List.replicate (rspBytes r o) 0xFF) ∧
       u.pool = s.pool ∧ holders u = holders s ∧ u.sync = s.sync ∧ u.maps.tiles = s.maps.tiles)) ∧
  (∀ (s : State) (i : Instr) (r : Req) (o : Op), requestOf i = some (r, o) → isRunning s = true →
    isHome s (homeOf r.gfa) = true →
    (∀ e, trackOf s r.agent r.tag = some e → e.req.gen = r.gen → e.req.epoch = r.epoch →
      ∃ u, Settles s i u ∧ u.fab.outbox = s.fab.outbox ∧ u.pool = s.pool ∧ holders u = holders s ∧ u.sync = s.sync ∧
        u.maps = s.maps ∧ (∃ e', trackOf u r.agent r.tag = some e' ∧ e'.deliveries = e.deliveries + 1)) ∧
    (∀ e, trackOf s r.agent r.tag = none →
      s.dir.replay.find? (fun e => e.agent == r.agent && e.tag == r.tag && e.epoch == r.epoch) = some e → e.gen = r.gen →
      ∃ u, Settles s i u ∧ u.fab.outbox = s.fab.outbox ++ [{ e.resp with epoch := currentEpoch s r.room }] ∧
        u.pool = s.pool ∧ holders u = holders s ∧ u.sync = s.sync ∧ u.maps = s.maps ∧ u.dir.replay = s.dir.replay))


/-- R111, R114, R121 and R126: an awaited snoop answer takes its agent off the transaction's list; the data of SR_DATA is kept and, with the
last answer, written to the line before the snoop completes; no answer writes any other byte. The owner's WB writes the 64 B of its line and
frees the entry, and is acknowledged; a holder's EVC frees its pointer without writing; from an agent that the entry does not record
either is answered 0x09, and 0x05 where the agent was lost while it held the line.
The model's own choices in it: log entry 36. -/
def Obligations.SnoopAnswersAndWriteBacks : Prop :=
  (∀ (s : State) (a : SnoopAnswer) (t : Txn) (d : List Byte), isRunning s = true → s.dir.waiting = [] → s.dir.recalls = [] →
    s.dir.txns = [t] → t.tag = a.tag → a.agent ∈ t.awaited →
    (t.awaited.filter (fun x => x != a.agent) ≠ [] →
      (let taken (i : Instr) (stays : Bool) (data : Option (List Byte)) : Prop := ∃ u, Settles s i u ∧ holders u = holders s ∧
         u.fab.outbox = s.fab.outbox ∧ u.pool = s.pool ∧
         u.dir.txns = [{ t with awaited := t.awaited.filter (fun x => x != a.agent)
                                data := data
                                ownerStays := t.ownerStays || (stays && t.kind == .shr) }]
       taken (.srNone a) false t.data ∧ taken (.srClean a) true t.data ∧ taken (.srWb a) false t.data ∧ taken (.srData a d) true (some d))) ∧
    (t.awaited.filter (fun x => x != a.agent) = [] → t.cause = none → t.recallFor = some .victim → t.data = none → s.dir.heldWb = [] →
      writesHeld s t.line = false → s.pool.upsets = [] →
      (let ended (i : Instr) (P : State → Prop) : Prop := ∃ u, Settles s i u ∧ u.dir.txns = [] ∧ entryOf u t.line = none ∧
         (∀ l, l ≠ t.line → (entryOf u l).map (fun e => (e.st, e.ptrs)) = (entryOf s l).map fun e => (e.st, e.ptrs)) ∧ P u
       ended (.srNone a) (fun u => u.pool = s.pool) ∧ ended (.srClean a) (fun u => u.pool = s.pool) ∧
       ended (.srWb a) (fun u => u.pool = s.pool) ∧
       (Memory.wf s.pool.mem = true → d.length = 64 → t.line < 2 ^ 58 → ended (.srData a d) fun u =>
         Stores s.pool.mem u.pool.mem (t.line * 64) d)))) ∧
  (∀ (s : State) (r : Req) (d : List Byte), Calm s r → Memory.wf s.pool.mem = true → d.length = 64 →
    (∀ e, entryOf s (lineKey r.gfa) = some e → e.st = .unique → e.ptrs = [r.agent] →
      (writesHeld s (lineKey r.gfa) = false → ∃ u, Settles s (.wb r d) u ∧ Sent s u r 0x69 0x00 0 [] ∧
        Stores s.pool.mem u.pool.mem (lineKey r.gfa * 64) d ∧ entryOf u (lineKey r.gfa) = none) ∧
      (lostLine s r.agent (lineKey r.gfa) = false → ∃ u, Settles s (.evc r) u ∧ Sent s u r 0x6A 0x00 0 [] ∧ u.pool = s.pool ∧
        entryOf u (lineKey r.gfa) = none)) ∧
    (entryOf s (lineKey r.gfa) = none →
      (let status : BitVec 8 := if lostLine s r.agent (lineKey r.gfa) then 0x05 else 0x09
       (∃ u, Settles s (.wb r d) u ∧ Sent s u r 0x69 status 0 [] ∧ u.pool = s.pool ∧ holders u = holders s) ∧
       (∃ u, Settles s (.evc r) u ∧ Sent s u r 0x6A status 0 [] ∧ u.pool = s.pool ∧ holders u = holders s))))


/-- R93, R98, R100, R104, R119, R123 to R125 and R140: a LEASE renews its sender's lease; an expired lease, a snoop unanswered for T_dead and
a route gone for T_dead lose the agent: its leases are gone, the loss is counted, it is sent LEASE_LOST, and no byte changes. A response
goes on to its agent and closes its entry, or is counted as late, and an answer to a request of the switch's own frees that request's slot; at
its deadline the entry closes with status 0x04; a replay entry past
its window is dropped; a write that has waited A_age is promoted; a copied tile is marked so; a waiting packet goes on when its bucket
lets it. The model's own choices in it: log entries 17, 36, 43 and 141. -/
def Obligations.LeasesTimersAndLostAgents : Prop :=
  (∀ (s : State) (a : AgentId), isRunning s = true → s.dir.waiting = [] → s.dir.recalls = [] →
    (∀ x, isHome s x = true → Answers s (.lease a x) fun t => t.pool = s.pool ∧ holders t = holders s ∧
      ∀ l ∈ t.dir.leases, l.agent = a → l.until_ = s.time.now + leaseNs s) ∧
    (let lost (u : State) : Prop := u.pool.mem = s.pool.mem ∧ (∀ l ∈ u.dir.leases, l.agent ≠ a) ∧
       (∃ p, p ∈ u.fab.outbox ∧ p.opcode = 0x73 ∧ p.dst = a) ∧ u.dir.lostCount = s.dir.lostCount + 1
     (s.dir.txns = [] → (∃ l ∈ s.dir.leases, l.agent = a ∧ l.until_ ≤ s.time.now) → flexRenews s a = false →
       ∃ u, Brings s (.leaseExpiry a) u ∧ lost u) ∧
     (s.dir.txns = [] → agentReachable s a = false → (∃ y ∈ s.fab.noRoute, y.1 = a ∧ y.2 + tDead s ≤ s.time.now) →
       ∃ u, lost u ∧ Answers s (.routeLossTimer a) fun t =>
         t = { settleAll u with fab := { (settleAll u).fab with noRoute := t.fab.noRoute } } ∧ ∀ y ∈ t.fab.noRoute, y.1 ≠ a) ∧
     (∀ x, s.dir.txns = [x] → snoopSentAt x a + tDead s ≤ s.time.now → a ∈ x.awaited → linesHeld s a = [] →
       x.awaited.filter (fun b => b != a) ≠ [] →
       ∃ u, Brings s (.snoopLossTimer x.tag a) u ∧ lost u ∧
         u.dir.txns = [{ x with awaited := x.awaited.filter (fun b => b != a) }]))) ∧
  (∀ (s : State) (a : AgentId) (tag : Tag) (g : Word),
    (let handedOn (t : State) (e : AttEntry) (P : Packet → Prop) : Prop := attOf t a tag = none ∧ t.pool = s.pool ∧ t.dir = s.dir ∧
       (e.port < 128 → (∃ q ∈ s.fab.ports, q.id = e.port) →
         ∃ q ∈ t.fab.ports, q.id = e.port ∧ ∃ x ∈ q.queue, x.pkt.dst = a ∧ x.pkt.tag = tag ∧ P x.pkt)
     (∀ e p, isRunning s = true → s.fab.att.find? (fun e => e.agent == p.dst && e.tag == p.tag && e.gen == p.w3.extractLsb' 52 4)
         = some e → p.dst = a → a ≠ selfAgent s → p.tag = tag → Answers s (.memoryResponse p) fun t => handedOn t e fun q => q.data = p.data) ∧
     (∀ p, isRunning s = true → p.dst ≠ selfAgent s → s.fab.att = [] → Answers s (.memoryResponse p) fun t =>
       t.fab.late = s.fab.late + 1 ∧ t.pool = s.pool ∧ t.dir = s.dir) ∧
     (∀ p q, isRunning s = true → p.dst = selfAgent s → s.own.asks = [] → s.own.sent = [q] → q.tag = p.tag → q.gen = p.w3.extractLsb' 52 4 →
       p.w3.extractLsb' 56 8 ≠ 0x08 → usesAnswer q.who = true → ∃ u, exec (.memoryResponse p) s = .next (settleOwn u) ∧ u.own.sent = [] ∧
         u.own.got = s.own.got ++ [{ who := q.who, isRead := !isWrite q.op, snap := isSnapLoad q.op, gfa := q.gfa
                                     status := p.w3.extractLsb' 56 8, data := p.data, at_ := s.time.now }] ∧
         u.pool = s.pool ∧ u.dir = s.dir ∧ u.engine = s.engine) ∧
     (∀ e, attOf s a tag = some e → e.tA + tDead s - 250 ≤ s.time.now →
       Answers s (.deadTargetTimer a tag e.gen) fun t => handedOn t e fun p => p.w3.extractLsb' 56 8 = 0x04)) ∧
    (∀ ep, Answers s (.replayWindowEnd a tag ep) fun t => t = { s with dir := { s.dir with replay := t.dir.replay } } ∧
      ∀ e, e ∈ t.dir.replay ↔ e ∈ s.dir.replay ∧ ¬(e.agent = a ∧ e.tag = tag ∧ e.epoch = ep ∧ e.until_ ≤ s.time.now)) ∧
    (∀ t c h, txnOf s (lineKey g) = some t → t.cause = some c → isPendingWrite s t = true →
      trackOf s c.1.agent c.1.tag = some h → h.arrived + ageNs s ≤ s.time.now → Answers s (.promotion g) fun u =>
        holders u = holders s ∧ (∃ e, entryOf u (lineKey g) = some e ∧ e.promoted = true) ∧
        u = { s with dir := { s.dir with entries := u.dir.entries } }) ∧
    (∀ y, tileOf s (tileKey g) = some y → Answers s (.cowCopyDone g) fun t =>
      tileOf t (tileKey g) = some { y with cow := false } ∧ t = { s with maps := { s.maps with tiles := t.maps.tiles } }) ∧
    (∀ room o p, isRunning s = true → s.fab.tokenWait = [(o, p)] → p.src = a → p.room = room →
      (∀ s', bestTest s p = (s', true) → exec (.tokenRelease a room) s = .next (freeOrigin
        (enterRequest { s' with fab := { s'.fab with tokenWait := [] } } o p) (some o) (pktSlots p))) ∧
      (∀ s', bestTest s p = (s', false) → exec (.tokenRelease a room) s = .next s)))


/-- R147, R149 and Table 6-10: what the sync operations answer and write, at an object whose waiters are none: SYNC_LD the value; SYNC_ST,
SYNC_ADD and SYNC_CAS the old value, writing the new one; the two waits answer at once where their condition holds, else wait until their
timeout; SYNC_ACQ takes its operand, at least 1, from a value that holds as much; SYNC_ARRIVE counts up and, as the last of m, starts the
next generation. A waiter whose time has come is answered with outcome 1 and the present value; an arrival is withdrawn from the count.
The model's own choices in it: log entry 40. -/
def Obligations.SyncOperations : Prop :=
  (∀ (s : State) (r : Req) (x : SyncObj) (a b : Word) (t : BitVec 32), Calm s r → s.sync.waiters = [] →
    syncObjOf s (syncNum r.gfa) = some x → syncAdmit s r = 0x00 → malformed r (.sync .ld 0 0 0) = false →
    (let answered (u : State) : Prop :=
       ∃ p ∈ u.fab.outbox, p.opcode = 0x43 ∧ p.dst = r.agent ∧ p.tag = r.tag ∧ p.w3.extractLsb' 56 8 = 0x00 ∧
         p.data = leBytes 8 x.value.toNat ++ [0] ++ List.replicate 7 0
     let value (u : State) : Option Word := (syncObjOf u (syncNum r.gfa)).map fun o => o.value
     let now (i : Instr) (v : Word) : Prop := ∃ u, Settles s i u ∧ answered u ∧ value u = some v ∧ u.sync.waiters = [] ∧
       u.pool = s.pool
     let waits (i : Instr) (k : SyncWait) (op v : Word) : Prop := ∃ u, Settles s i u ∧ u.fab.outbox = s.fab.outbox ∧
       value u = some v ∧ u.sync.waiters = [{ n := syncNum r.gfa, req := r, kind := k, a := op
                                              until_ := s.time.now + waitTimeout s t.toNat }]
     let need : Word := if a.toInt < 1 then 1 else a
     let m : Nat := if a.extractLsb' 0 32 = 0 then 1 else (a.extractLsb' 0 32).toNat
     let g : BitVec 32 := x.value.extractLsb' 32 32
     let c : BitVec 32 := x.value.extractLsb' 0 32
     now (.syncLd r) x.value ∧ now (.syncAdd r a) (x.value + a) ∧
     now (.syncSt r a) a ∧
     now (.syncCas r a b) (if x.value = a then b else x.value) ∧
     (if a.sle x.value then now (.syncWaitGe r a t) x.value else waits (.syncWaitGe r a t) .ge a x.value) ∧
     (if x.value = a then waits (.syncWaitNe r a t) .ne a x.value else now (.syncWaitNe r a t) x.value) ∧
     (if need.sle x.value then now (.syncAcq r a t) (x.value - need) else waits (.syncAcq r a t) .acq need x.value) ∧
     (if (c.toNat + 1) % 2 ^ 32 = m then now (.syncArrive r a t) ((g + 1) ++ (0 : BitVec 32))
      else waits (.syncArrive r a t) (.arrive g x.value) a (g ++ (c + 1))))) ∧
  (∀ (s : State) (w : SyncWaiter) (x : SyncObj), s.dir.waiting = [] → s.dir.recalls = [] → s.dir.txns = [] → s.sync.waiters = [w] →
    isOwn s w.req = false → w.until_ ≤ s.time.now → syncObjOf s w.n = some x → (∀ e, trackOf s w.req.agent w.req.tag = some e → 0 < e.deliveries) →
    ∃ u, Brings s (.syncTimeout w.req.agent w.req.tag) u ∧ u.sync.waiters = [] ∧ u.pool = s.pool ∧
      (∃ p ∈ u.fab.outbox, p.opcode = 0x43 ∧ p.dst = w.req.agent ∧ p.tag = w.req.tag ∧
        p.data = leBytes 8 x.value.toNat ++ [1] ++ List.replicate 7 0) ∧
      (syncObjOf u w.n).map (fun o => o.value) = some (match w.kind with
        | .arrive g _ => if x.value.extractLsb' 32 32 = g then g ++ (x.value.extractLsb' 0 32 - 1) else x.value
        | _ => x.value))



/-- R52, R53 and R56: a data flit that passes integrity and has the expected number is taken: its acknowledgement frees replayed
flits, its credits are added, and the next number is expected; one that fails is discarded and a retry requested that names it; one out
of turn while a retry is awaited is discarded. An idle flit brings its acknowledgement and credits only.
The model's own choices in it: log entries 47, 48 and 51. -/
def Obligations.FlitsAreTakenInOrder : Prop :=
  ∀ (s : State) (n : Nat) (h : FlitHdr) (q : FabPort) (ps : List Piece), isRunning s = true → fabPort s n = some q → q.up = true →
    q.sess.phase = 6 → n < 128 →
    (let heard (q' : FabPort) : Prop := q'.replay = dropAcked q.replay h.ack q.txSeq ∧
       q'.credits = addAt (addAt q.credits h.cvcA.toNat h.ccntA.toNat) h.cvcB.toNat h.ccntB.toNat ∧ q'.queue = q.queue ∧
       q'.owed = q.owed ∧ q'.partialIn = q.partialIn
     let frame (t : State) : Prop := t = { s with fab := { s.fab with ports := t.fab.ports }, out := t.out }
     (h.intact = true → h.seq = q.rxSeq → h.abort = false → Answers s (.dataFlit n h []) fun t => frame t ∧ t.out = s.out ∧
       ∃ q', fabPort t n = some q' ∧ heard q' ∧ q'.rxSeq = q.rxSeq + 1 ∧ q'.failRun = 0 ∧ q'.retryAsked = false) ∧
     (h.intact = false → h.seq = q.rxSeq → q.failRun < 7 → (retriesNow s q).length ≤ 1000 → Answers s (.dataFlit n h ps) fun t => frame t ∧
       (∃ f, t.out = s.out ++ [.flit n f] ∧ f.kind = 2 ∧ f.ack = q.rxSeq) ∧ ∃ q', fabPort t n = some q' ∧ q'.rxSeq = q.rxSeq ∧
         q'.credits = q.credits ∧ q'.replay = q.replay ∧ q'.retryAsked = true ∧ q'.retries = q.retries + 1 ∧
         q'.failRun = q.failRun + 1) ∧
     (h.seq ≠ q.rxSeq → q.retryAsked = true → exec (.dataFlit n h ps) s = .next s) ∧
     (h.intact = true → Answers s (.idleFlit n h) fun t => frame t ∧ t.out = s.out ∧ ∃ q', fabPort t n = some q' ∧ heard q' ∧
       q'.rxSeq = q.rxSeq) ∧
     (h.intact = false → exec (.idleFlit n h) s = .next s))

/-- R52, R59, R65: a packet that starts in an accepted flit (`u` is the state after that flit's header) and goes past it is kept in
progress where no egress takes it; an idle egress that has credits for all of it takes it as a cut-through and, once 25 slots are there,
sends the first flit; one with a header that no receiver takes is discarded, counted and its credits returned.
The model's own choices in it: log entry 46. -/
def Obligations.PacketsStartInFlits : Prop :=
  ∀ (s u : State) (n k : Nat) (h : FlitHdr) (q qu : FabPort) (p : Packet), isRunning s = true → fabPort s n = some q → q.up = true →
    q.sess.phase = 6 → h.intact = true → h.seq = q.rxSeq → h.abort = false → exec (.dataFlit n h []) s = .next u →
    fabPort u n = some qu → agentPort u n = false → q.cutTo = [] →
    (let o : Origin := { port := n, vc := p.vc, id := u.fab.nextOrigin }
     let entries := entriesOf (ingressOf (newOrigin u n p.vc).1 o p) o
     (headerOk p = true → k < pktSlots p → (∀ e ∈ entries, canCut u qu e.1 e.2.pkt = false) →
       Answers s (.dataFlit n h [.start p k]) fun t =>
         (∃ q', fabPort t n = some q' ∧ q'.partialIn = some ({ pkt := p, org := some o }, k) ∧ q'.cutTo = [] ∧ q'.owed = qu.owed) ∧
         t = { u with fab := { u.fab with ports := t.fab.ports, nextOrigin := u.fab.nextOrigin + 1 } }) ∧
     (headerOk p = true → k < pktSlots p → k ≤ 25 → ∀ m x e, entries = [(m, x)] → canCut u qu m x.pkt = true → fabPort u m = some e →
       m ≠ n → e.replay.length < 1024 → Answers s (.dataFlit n h [.start p k]) fun t =>
         (∃ q', fabPort t n = some q' ∧ q'.partialIn = some ({ pkt := p, org := some o }, k) ∧ q'.cutTo = [m]) ∧
         ∃ e', fabPort t m = some e' ∧ e'.queue = e.queue ∧ e'.credits = subAt e.credits p.vc.toNat (pktSlots p) ∧
           (∃ c, e'.cutting = some c ∧ c.q = x ∧ c.got = k ∧ c.sent = if k < 25 then 0 else 25) ∧
           (k < 25 → e'.txSeq = e.txSeq ∧ e'.replay = e.replay) ∧
           (k = 25 → e'.txSeq = e.txSeq + 1 ∧ ∃ f, e'.replay = e.replay ++ [f] ∧ f.pkt = some x.pkt ∧ f.first = 0 ∧ f.slots = 25)) ∧
     (headerOk p = false → Answers s (.dataFlit n h [.start p k]) fun t => (∃ q', fabPort t n = some q' ∧
       q'.malformed = q.malformed + 1 ∧ q'.partialIn = none ∧ q'.owed = addAt q.owed p.vc.toNat (pktSlots p)) ∧
       t = { u with fab := { u.fab with ports := t.fab.ports } }))

/-- R53, R56 and R66: a retry request is answered by sending every kept flit again from the one it names on, as first sent; link control
brings the initial credits; a stalled cut-through is given up by its egress, which sends a flit with abort, and its ingress keeps the
packet for it. The model's own choices in it: log entries 47 and 48. -/
def Obligations.RetryCreditsAndStall : Prop :=
  ∀ (s : State) (n : Nat) (h : FlitHdr) (q : FabPort) (l : List Nat), fabPort s n = some q →
    (isRunning s = true → q.up = true → h.intact = true →
      ((if q.askRun.1 = h.ack then q.askRun.2 < 7 else True) → (retriesNow s q).length ≤ 1000 →
        ∃ u, Pumps s (.retryRequest n h) u ∧
          u.out = s.out ++ (if ((dropAcked q.replay h.ack q.txSeq).head?.map fun f => f.seq) = some h.ack then
            (dropAcked q.replay h.ack q.txSeq).map (fun f => Out.flit n f) else []) ∧
          ∃ q', fabPort u n = some q' ∧ q'.replay = dropAcked q.replay h.ack q.txSeq ∧ q'.txSeq = q.txSeq ∧ q'.queue = q.queue ∧
            q'.retries = q.retries + 1) ∧
      (l.length = 8 → Answers s (.linkControl n h (.credits l)) fun t => ∃ q', fabPort t n = some q' ∧ q'.credits = l) ∧
      exec (.linkControl n h .linkDown) s = .next (portDown s n)) ∧
    (∀ c m i, q.cutting = some c → c.got < pktSlots c.q.pkt → q.replay.length < 1024 → fabPort s m = some i → m ≠ n →
      i.cutTo = [n] → (∀ x ∈ s.fab.ports, x.id ≠ m → n ∉ x.cutTo) → Answers s (.cutThroughStall n) fun t =>
        (∃ f, t.out = s.out ++ [.flit n f] ∧ f.abort = true ∧ f.kind = 0 ∧ f.pkt = none ∧
          ∃ q', fabPort t n = some q' ∧ q'.cutting = none ∧ q'.replay = q.replay ++ [f] ∧ q'.queue = q.queue) ∧
        ∃ i', fabPort t m = some i' ∧ i'.cutTo = [] ∧ i'.stalled = i.stalled ++ [(n, c.q)] ∧ i'.partialIn = i.partialIn)


/-- R50, R56, R73 and R376: a port that goes down leaves every path set but keeps its place in a shadow set, flushes what it holds, counts
it, and forgets its session and credits, for each kind of port; after T_dead its shadow set is dropped, and no other. An enabled port that
trains comes up on the lanes left to it, a fabric port on two at least. A fabric port announces its credits and its session begins with the
handshake, as a bridge port's does; a flex port waits for its IDE keys. The model's own choices in it: log entries 47 and 50. -/
def Obligations.LinksGoDownAndComeUp : Prop :=
  (∀ (s : State) (n : Nat), isRunning s = true →
    (∀ q, n < 128 → fabPort s n = some q → q.up = true → ∃ u, Pumps s (.portDown n) u ∧
      (n, s.time.now, upPorts s) ∈ u.fab.shadows ∧ ∃ q', fabPort u n = some q' ∧ q'.up = false ∧ q'.downs = q.downs + 1 ∧ q'.queue = [] ∧
        q'.replay = [] ∧ q'.cutting = none ∧ q'.partialIn = none ∧ q'.sess.phase = 0 ∧ q'.credits = List.replicate 8 0) ∧
    (∀ q, n < 16 → brgPort s n = some q → q.up = true → ∃ u, Pumps s (.portDown (128 + n)) u ∧
      (128 + n, s.time.now, upPorts s) ∈ u.fab.shadows ∧ ∃ q', brgPort u n = some q' ∧ q'.up = false ∧ q'.downs = q.downs + 1 ∧
        q'.queue = [] ∧ q'.unacked = [] ∧ q'.sess.phase = 0) ∧
    (∀ q, n < 16 → flexPort s n = some q → ∃ u, Pumps s (.portDown (144 + n)) u ∧
      ∃ q', flexPort u n = some q' ∧ q'.up = false ∧ q'.secured = false ∧ q'.ideActive = false ∧ q'.keys = [] ∧ q'.snoops = []) ∧
    (Answers s (.shadowSetDrop n) fun t => t = { s with fab := { s.fab with shadows := t.fab.shadows } } ∧
      ∀ x, x ∈ t.fab.shadows ↔ x ∈ s.fab.shadows ∧ ¬(x.1 = n ∧ x.2.1 + tDead s ≤ s.time.now))) ∧
  (∀ (s : State) (n lanes : Nat), isRunning s = true →
    (∀ q, n < 128 → 2 ≤ lanes → fabEn s n = true → 2 ≤ fabTrainable s n → fabPort s n = some q → q.up = false → q.sess.retryAt = none →
      q.resess = none → Answers s (.linkUp n lanes) fun t => ∃ q', fabPort t n = some q' ∧ q'.up = true ∧
        q'.lanes = min lanes (fabTrainable s n) ∧ q'.credits = List.replicate 8 0 ∧ q'.sess.phase = 1 ∧
        ∃ c w, Out.linkCtl n 0x00 c w ∈ t.out) ∧
    (∀ q, n < 16 → 0 < lanes → brgEn s n = true → 0 < brgTrainable s n → brgPort s n = some q → q.up = false → q.sess.retryAt = none →
      q.resess = none → Answers s (.linkUp (128 + n) lanes) fun t => ∃ q', brgPort t n = some q' ∧ q'.up = true ∧
        q'.lanes = min lanes (brgTrainable s n) ∧ q'.sess.phase = 1) ∧
    (∀ q, n < 16 → 0 < lanes → flexEn s n = true → 0 < flexTrainable s n → flexPort s n = some q → q.up = false → q.retryAt = none →
      Answers s (.linkUp (144 + n) lanes) fun t => ∃ q', flexPort t n = some q' ∧ q'.up = true ∧ q'.ideActive = false ∧
        q'.lanes = min lanes (flexTrainable s n) ∧ q'.linkUpAt = s.time.now))


/-- R74, R75 and R359: a notice about a snoop makes this switch send that snoop again, with its tag, to the group it went to and to the
agents still awaited that had it alone; one about a request of its own agent makes it issue that request again, with its tag, gen and
epoch; one about a packet that nobody here formed changes nothing. Recalling a tile that is not Unrecalled changes nothing, nor
does a second recall while one is under way; the first one makes every line of the tile busy with a snoop to the extent's group.
The model's own choices in it: log entries 14 and 49. -/
def Obligations.NoticesAndRecalls : Prop :=
  (∀ (s : State) (src : AgentId) (f : FlushEntry), isRunning s = true → (∀ q ∈ s.own.sent, q.flushed = false) →
    (let s0 := renewLease (takeNotice s src) src
     (f.opcode = 0x70 ∨ f.opcode = 0x71 ∨ f.opcode = 0x72 → exec (.flushNotice src [f]) s = .next (resendSnoop s0 f.tag)) ∧
     (∀ t, f.opcode = 0x70 → s.dir.txns = [t] → t.tag = f.tag → t.kind = .inv →
       Answers s (.flushNotice src [f]) fun u => holders u = holders s ∧ u.pool = s.pool ∧
         (∃ t', u.dir.txns = [t'] ∧ t'.sentAt = s.time.now ∧ t'.awaited = t.awaited) ∧ ∃ ps, Formed s u ps ∧
           (∀ p ∈ ps, p.opcode = 0x70 ∧ p.tag = f.tag ∧ p.w2 = lineGfa t.line) ∧
           (ps.filter fun p => !p.mcast).map (fun p => p.dst) = t.awaited.filter (fun a => t.uni.any fun x => x.1 == a) ∧
           (ps.filter fun p => p.mcast).length = if t.group.isSome then 1 else 0) ∧
     (∀ q, f.opcode.toNat < 0x38 → s.own.sent = [q] → s.own.asks = [] → q.tag = f.tag → q.epoch = f.epoch →
       isHome s (homeOf q.gfa) = false → Answers s (.flushNotice src [f]) fun u =>
         u.own.sent = [{ q with sentAt := s.time.now }] ∧ ∃ p, Formed s u [p] ∧ p.opcode = opOpcode q.op ∧ p.tag = q.tag ∧
           p.epoch = q.epoch ∧ p.w2 = q.gfa ∧ p.w3.extractLsb' 48 4 = q.gen ∧ p.room = q.room) ∧
     (0x44 ≤ f.opcode.toNat ∧ f.opcode.toNat < 0x70 → exec (.flushNotice src [f]) s = .next s0))) ∧
  (∀ (s : State) (g : Word) (y : Tile), isRunning s = true → s.dir.waiting = [] → s.dir.recalls = [] → s.dir.txns = [] →
    tileOf s (tileKey g) = some y →
    (y.unrecalled = false → Answers s (.tileRecall g) fun t => t = dropLeases s) ∧
    (y.unrecalled = true → exec (.tileRecall g) s = .next (pump (startTileRecall s (tileKey g))) ∧
      ((∀ k < 1024, groupAwaited s (tileKey g * 1024 + k) none ≠ []) → Answers s (.tileRecall g) fun t =>
        (∀ k < 1024, ∃ x ∈ t.dir.txns, x.line = tileKey g * 1024 + k ∧ x.kind = .inv ∧ x.recallFor = some .own ∧
          x.awaited = groupAwaited s (tileKey g * 1024 + k) none) ∧ t.dir.txns.length = 1024 ∧ t.pool = s.pool ∧
        exec (.tileRecall g) t = .next t)))
namespace Sys2Proof.Machine

/-- Nothing waits at the home for a line, no snoop is under way, and nothing is to be recalled. -/
def NoWaiters (s : State) : Prop := s.dir.waiting = [] ∧ s.dir.txns = [] ∧ s.dir.recalls = []

/-- From `s` to `u` only movers and the switch's own requests have changed. -/
def OnlyMovers (s u : State) : Prop :=
  u = { s with maps := { s.maps with tiles := u.maps.tiles, retained := u.maps.retained }, own := u.own }

end Sys2Proof.Machine


/-- R160, R161, R162 and R165, Table 7-4, for a head tile or one that a version keeps: a Booked mover starts on a free porter and is
Moving; its pass ends and it is Closing, so that writes wait; closed, it is Committing, its porter is free, and the commit with its epoch
e + 1 and its destination goes to the map holder. The holder's verdict settles it: recorded, at its destination with e + 1; refused, at its
source with e. A verdict of another epoch changes nothing. The model's own choices in it: log entries 60 and 62. -/
def Obligations.MovesGoThroughTheirStates : Prop :=
  (∀ (s : State) (g : Word) (p : Nat) (m : Mover), isRunning s = true →
    (moverIn s (tileKey g) .booked = some m → p < 64 → isRetired s 0x09 p = false → (∀ y ∈ movers s, y.porter ≠ some p) →
      (∀ y ∈ moversOf s (tileKey g), y.mig = .settled ∨ y.mig = .booked) → s.pool.upsets = [] →
      Answers s (.moveStart g p) fun t => moverIn t (tileKey g) .moving = some { m with mig := .moving, porter := some p } ∧
        OnlyMovers s t ∧ (∃ q, t.own.sent = s.own.sent ++ [q] ∧ q.who = .porter p ∧ q.engine = 144 + p)) ∧
    (moverIn s (tileKey g) .moving = some m → moverIn s (tileKey g) .closing = none →
      Answers s (.movePassEnd g) fun t => moverIn t (tileKey g) .closing = some { m with mig := .closing } ∧ OnlyMovers s t ∧
        ∀ n, m.porter = some n → ∀ q ∈ t.own.sent, q.who ≠ .porter n) ∧
    (∀ y d k, moverIn s (tileKey g) .closing = some m → moverIn s (tileKey g) .committing = none → tileOf s (tileKey g) = some y →
      m.dest = some d → m.tag = none → freeSlot s 519 = some k → mapTarget s (tileRoom s (tileKey g)) false ≠ selfId s →
      (let m' := { m with mig := .committing, since := s.time.now, porter := none, tag := some (BitVec.ofNat 20 (519 * 512 + k)) }
       ∃ u q, exec (.moveCloseDone g) s = .next (settleAll u) ∧ moverIn u (tileKey g) .committing = some m' ∧ u.pool = s.pool ∧
        u.own = s.own ∧ Formed s u [q] ∧ q.opcode = 0xF0 ∧ some q.tag = m'.tag ∧ q.data = leBytes 8 (tileEntry y d 0).toNat))) ∧
  (∀ (s : State) (x : MapMsg) (w : Word) (y : Tile) (m : Mover) (d : Residence) (i : Instr) (st : Mig), isRunning s = true → NoWaiters s →
    x.entries = [w] → tileOf s (entryTile x w) = some y → moverIn s (entryTile x w) st = some m → m.dest = some d → m.work = none →
    (i = .mapAck x ∧ st = .committing ∨ i = .mapAnswer x ∧ st = .disputed) →
      (let moved (u : State) (z : Mover) : Prop := ∀ z' ∈ moversOf u (entryTile x w), z'.cut = m.cut → z' = z
       ∃ u y', exec i s = .next (settleAll u) ∧ tileOf u (entryTile x w) = some y' ∧ y'.key = y.key ∧
        (w.extractLsb' 48 16 ≠ y.e + 1 → y' = y ∧ u.maps = s.maps) ∧
        (w.extractLsb' 48 16 = y.e + 1 → w.extractLsb' 0 2 = 1 → y'.e = y.e + 1 ∧ moved u { idle m with res := d, lost := unitLost s d } ∧
          (m.res.tier ≠ 0 → u.pool.mem = s.pool.mem)) ∧
        (w.extractLsb' 48 16 = y.e + 1 → w.extractLsb' 0 2 ≠ 1 → y'.e = y.e ∧ moved u (idle m) ∧ u.pool = s.pool)))

/-- R162, R163, R165 and R166: at the map holder, one commit is recorded once: MAP_COMMIT that is not known records it and
answers 1, MAP_QUERY records it as refused and answers 2, and every later message about it gets what was recorded. With the journal full
both wait (R349). The model's own choices in it: log entries 14 and 144. -/
def Obligations.MapHolderRecordsOnce : Prop :=
  ∀ (s : State) (m : MapMsg) (w : Word), isRunning s = true → isMapHolder s m.room = true → m.entries = [w] → s.ledger.target ≠ 1 →
    (let answers (i : Instr) (op : BitVec 8) (v : Nat) (rec_ : Bool) : Prop := Answers s i fun t =>
       (∃ q : Packet, Formed s t [q] ∧ q.opcode = op ∧ q.dst = m.src ∧ q.tag = m.tag ∧ q.data = leBytes 8 (withVerdict w v).toNat) ∧
       t.pool = s.pool ∧ t.maps.tiles = s.maps.tiles ∧ ∃ x, recOf t (entryTile m w) w = some x ∧ x.recorded = rec_
     (journalFull s = true → exec (.mapCommit m) s = .next s ∧ exec (.mapQuery m) s = .next s) ∧
     (journalFull s = false → recOf s (entryTile m w) w = none →
       answers (.mapCommit m) 0xF1 1 true ∧ answers (.mapQuery m) 0xF3 2 false) ∧
     (journalFull s = false → ∀ x, recOf s (entryTile m w) w = some x →
       answers (.mapCommit m) 0xF1 (if x.recorded then 1 else 2) x.recorded ∧
       answers (.mapQuery m) 0xF3 (if x.recorded then 1 else 2) x.recorded))


/-- R154, R158, R165, R171, R172 and R175: 20 us without an acknowledgement make a Committing mover Disputed, and the query goes to the
holder under the commit's tag; a tier interval books moves, moves nothing itself and halves the access counts of the room's tiles; a
scheduled layer is released for every pass whose release time has come, and its tiles are to move out. An enabled attachment's tray is
present as it declares itself; a tray that is lost is counted, and every mover that resides there is lost; an evacuated controller returns
with the channels that are not retired. The model's own choices in it: log entries 17, 61, 64 and 146. -/
def Obligations.MigrationTimersAndTrays : Prop :=
  (∀ (s : State), isRunning s = true →
    (∀ (g : Word) (y : Tile) (m : Mover) (d : Residence) (tag : Tag), tileOf s (tileKey g) = some y →
      moverIn s (tileKey g) .committing = some m → moverIn s (tileKey g) .disputed = none → m.dest = some d → m.tag = some tag →
      m.since + 20000 ≤ s.time.now → mapTarget s (tileRoom s (tileKey g)) true ≠ selfId s →
      ∃ u q, exec (.committingTimer g) s = .next (settleAll u) ∧
        moverIn u (tileKey g) .disputed = some { m with mig := .disputed, since := s.time.now, porter := none } ∧
        Formed s u [q] ∧ q.opcode = 0xF2 ∧ q.tag = tag ∧ q.data = leBytes 8 (tileEntry y d 0).toNat) ∧
    (∀ (room : RoomId) (x : Room), roomOf s room = some x → x.unified = true →
      (s.maps.tiles.map fun y => y.key).Nodup → Answers s (.tierInterval room) fun t =>
      t = { s with maps := { s.maps with tiles := t.maps.tiles } } ∧
      t.maps.tiles.map (fun y => (y.key, y.res, y.e, y.count)) = s.maps.tiles.map (fun y =>
        (y.key, y.res, y.e, if tileRoom s y.key = room then y.count / 2 else y.count)) ∧
      ∀ y ∈ t.maps.tiles, y.mig = .booked ∨ ∃ z ∈ s.maps.tiles, z.key = y.key ∧ z.mig = y.mig) ∧
    (∀ (e i p : Nat) (v : Stream) (l : Layer), streamOf s e = some v → v.schedule = true → v.layers[i]? = some l → 0 < v.period →
      exec (.layerReleaseTime e) s = .next (settleAll (runStream true s v)) ∧
      (v.start + p * v.period + l.release ≤ s.time.now → p < v.passes → l.rel ≤ p →
        ∃ v' l', streamOf (releaseLayer s e (l, i)) e = some v' ∧ v'.layers[i]? = some l' ∧ p < l'.rel ∧ l'.rel ≤ v.passes ∧
          (l.skipped = false → ∀ k ∈ layerKeys l, (k, false) ∈ v'.todo)))) ∧
  (∀ (s : State) (n : Nat), isRunning s = true →
    (∀ t1 t2, trayEn s n = true → Answers s (.trayEnumeration n t1 t2) fun t =>
      t = { s with maps := { s.maps with trays := t.maps.trays } } ∧
      ∃ y, trayOf t n = some y ∧ y.present = true ∧ y.lost = false ∧ y.t1 = t1 ∧ y.t2 = t2) ∧
    (∀ y, trayOf s n = some y → y.present = true → y.lost = false →
      ∃ u, exec (.trayLost n) s = .next (settleAll (pump (refreshTarget u))) ∧
        (NoWaiters s → (∀ m ∈ movers s, m.mig = .settled ∧ m.dest = none) →
          (∃ y', trayOf u n = some y' ∧ y'.lost = true ∧ y'.timesLost = y.timesLost + 1) ∧ u.pool = s.pool ∧
          (∀ m ∈ movers u, m.res.tier ≠ 0 → m.res.unit = n → m.lost = true) ∧
          (Quiet s → mirrorTarget u = s.ledger.target → exec (.trayLost n) s = .next (dropLeases u)))) ∧
    (∀ c, s.maps.evac.any (fun x => x.1 == c) = true →
      (∀ m ∈ movers s, m.lost = false → ∀ d ∈ placesOf m, d.tier = 0 → d.unit ≠ c) → ∃ u, exec (.evacuationDone c) s = .next (settleAll u) ∧
        u = { s with maps := { s.maps with evac := u.maps.evac, inService := u.maps.inService } } ∧
        (∀ x ∈ u.maps.evac, x.1 ≠ c) ∧ (c, (List.range 8).filter fun i => !isRetired s 0x05 (8 * c + i)) ∈ u.maps.inService))

/-- R29, R30, R32, R37, R92 and R157: how an epoch change runs. A member installs the new map beside its own, which stays current, and
acknowledges, its own slice clamped against its own state; told again, it makes it current; of a map that is live already it takes the
room's rules alone. At the map holder the new epoch becomes current when every switch of the change has
acknowledged, or has been left out after its bound; a refusal leaves the old map, with the slices staged as before. The older epoch
is reported drained when none of its requests is in flight and T_dead has passed since the new one became current.
The model's own choices in it: log entries 52, 53, 54 and 57. -/
def Obligations.EpochChangesGoThroughTheirSteps : Prop :=
  ∀ (s : State) (room : RoomId) (x : Room), isRunning s = true → roomOf s room = some x → room ≠ 0 → MirrorStands s →
    (∀ m : EpochMap, m.room = room → x.holder = m.holder → m.holder ≠ selfId s → s.fab.unrouted = [] →
      (x.commit = none → m.epoch = x.current ∨ x.older = some m.epoch →
        exec (.epochInstall m) s = .next (takeRules s room m.rules)) ∧
      (x.commit = none → m.epoch ≠ x.current → x.older ≠ some m.epoch → Answers s (.epochInstall m) fun t =>
        t.pool = s.pool ∧ t.maps = s.maps ∧
        t.out.getLast? = some (.event 5 m.holder.toNat) ∧ (∃ r ∈ t.fab.routes, r.room = room ∧ r.epoch = m.epoch ∧ r.paths = m.paths) ∧
        ∃ y, roomOf t room = some y ∧ y.current = x.current ∧ y.cur = x.cur ∧ y.rate = m.rules.rate ∧ y.unified = m.rules.unified ∧
          (y.commit.map fun c => (c.epoch, c.slices, c.step, c.acked)) =
            some (m.epoch, m.slices.map (fun z => if z.switch = selfId s then clampSlice s room z else z), 1, [selfId s])) ∧
      (∀ c, x.commit = some c → c.epoch = m.epoch → c.step = 1 → Answers s (.epochInstall m) fun t => ∃ y, roomOf t room = some y ∧
        y.current = m.epoch ∧ y.cur = c.slices ∧ y.old = x.cur ∧ y.currentAt = s.time.now ∧
        y.older = if x.current = 0 then none else some x.current)) ∧
    (∀ c, x.commit = some c → x.holder = selfId s → c.step = 1 → c.epoch ≠ 0 → c.slices ≠ [] →
      (∀ member, ∃ u y, exec (.epochAck room c.epoch member) s = .next (settle u) ∧ roomOf u room = some y ∧
        (if (commitMembers s x c).all (fun m => (member :: c.acked).contains m)
         then y.current = c.epoch ∧ y.cur = c.slices ∧ y.older = if x.current = 0 then none else some x.current
         else y = { x with commit := some { c with acked := (member :: c.acked).eraseDups } })) ∧
      (∀ member, c.at_ + 1000000 ≤ s.time.now →
        exec (.epochMemberTimeout room member) s = exec (.epochAck room c.epoch member) s) ∧
      (∀ member, s.time.now < c.at_ + 1000000 → exec (.epochMemberTimeout room member) s = .next s) ∧
      (x.waiting = none → ∀ member, ∃ u, exec (.epochAck room 0 member) s = .next (settle u) ∧
        roomOf u room = some { x with commit := none, staged := c.backup ++ x.staged } ∧
        ∀ m ∈ c.acked, m ≠ selfId s → Out.event 12 m.toNat ∈ u.out)) ∧
    (∀ c, x.commit = some c → x.holder ≠ selfId s → c.step = 1 → x.current ≠ 0 → Answers s (.epochAck room 0 x.holder) fun t =>
      roomOf t room = some { x with commit := none } ∧ t.pool = s.pool ∧ t.maps = s.maps) ∧
    (∀ old, x.older = some old → x.drained = false →
      (inFlight s room old = 0 → x.currentAt + tDead s ≤ s.time.now → x.holder ≠ selfId s → Answers s (.drainCheck room) fun t =>
        t.out = s.out ++ [.event 7 x.holder.toNat] ∧ roomOf t room = some { x with drained := true } ∧
        t = { s with rooms := { s.rooms with rooms := t.rooms.rooms }, out := t.out }) ∧
      (inFlight s room old ≠ 0 ∨ s.time.now < x.currentAt + tDead s → exec (.drainCheck room) s = .next s) ∧
      (x.holder ≠ selfId s → x.cur ≠ [] → ∃ u y, exec (.drainReport room old x.holder) s = .next (settle u) ∧
        roomOf u room = some y ∧ y.older = none ∧ y.old = [] ∧ y.current = x.current ∧ y.cur = x.cur ∧ y.commit = none) ∧
      (∀ c member, x.holder = selfId s → x.commit = some c → c.step = 3 →
        ((selfId s :: (x.old ++ x.cur).map (fun y => y.switch)).eraseDups).all (fun m => (member :: c.drained).contains m) = false →
        ∃ u, exec (.drainReport room old member) s = .next (settle u) ∧
          roomOf u room = some { x with commit := some { c with drained := (member :: c.drained).eraseDups } }))

namespace Sys2Proof.Machine

/-- Entry `e` is `en`, of opcode `op`; it is accepted, has no result and may run. -/
def CanRun (s : State) (e op : Nat) (en : Entry) : Prop := ledgerEntry s e = some en ∧ runs s en op = true ∧ s.own.need = []

/-- The same for a change of the maps, which waits while their journal is full (R349). -/
def MapRun (s : State) (e op : Nat) (en : Entry) : Prop := CanRun s e op en ∧ journalFull s = false ∧ MirrorStands s

/-- In `t` the descriptor `e` has its result: a status, and the two words of its record. -/
def Ended (t : State) (e : Nat) (st : BitVec 8) (r16 r24 : Nat) : Prop :=
  ∃ x f, ledgerEntry t e = some x ∧ x.result = some f ∧ f.status = st ∧ f.r16 = BitVec.ofNat 64 r16 ∧ f.r24 = BitVec.ofNat 64 r24

/-- From `s` to `t` nothing changes but the ledger entry `e`, which waits for the journal no longer, and the answers that it has used. -/
def OnlyEntry (s t : State) (e : Nat) : Prop :=
  t = { s with
    ledger := { s.ledger with entries := t.ledger.entries, journalWait := t.ledger.journalWait }
    own := { s.own with got := t.own.got } } ∧
    (∀ k, k ≠ e → (k ∈ t.ledger.journalWait ↔ k ∈ s.ledger.journalWait)) ∧ ∀ k, k ≠ e → ledgerEntry t k = ledgerEntry s k

end Sys2Proof.Machine

/-- R195, R196, R197, R200, R26, R31, R92 and R157: NOP, rings, slices, domains, limits and tier modes, each on an entry that runs.
A ring is set as the descriptor gives it, for the room that books it, and is left alone if it may not be set; a disabled ring fetches
no more; a slice is staged and the current map stays; a commit starts the next epoch; from a room that may not ask for it, each ends
with status 0x03 and does nothing else. The model's own choices in it: log entries 13, 53, 55, 57 and 133. -/
def Obligations.RoomDescriptorsTakeEffect : Prop :=
  ∀ (s : State) (e : Nat) (en : Entry) (x : Cells) (p : List PathSet),
    (CanRun s e 0x00 en → Answers s (.nop e) fun t => Ended t e 0x00 0 0 ∧ OnlyEntry s t e) ∧
    (CanRun s e 0x01 en → let id : BitVec 12 := BitVec.ofNat 12 (descField en.desc 16 2)
      (descField en.desc 18 1 = 0 → (ringAllowed s en = false → Answers s (.ringSet e) fun t => Ended t e 0x03 0 0 ∧ OnlyEntry s t e) ∧
        (ringAllowed s en = true → ringSettable s (ringRoom s (descField en.desc 16 2)) en.desc = false →
          Answers s (.ringSet e) fun t => Ended t e 0x00 0 0 ∧ OnlyEntry s t e) ∧
        (ringAllowed s en = true → ringSettable s (ringRoom s (descField en.desc 16 2)) en.desc = true → MirrorStands s →
          Answers s (.ringSet e) fun t => Ended t e 0x00 1 0 ∧ t.rooms = s.rooms ∧ t.maps = s.maps ∧ t.pool = s.pool ∧
            ∃ r, ringOf t id = some r ∧ r.enabled = true ∧ r.room = ringRoom s (descField en.desc 16 2) ∧ r.nw = 0 ∧ r.head = 0 ∧
              r.h = BitVec.ofNat 32 (descField en.desc 40 4) ∧ r.tail = r.h ∧ r.d = descField en.desc 21 1 ∧
              r.c = descField en.desc 22 1 ∧ r.dbase = descWord en.desc 24 ∧ r.cbase = descWord en.desc 32)) ∧
      (∀ r act i, descField en.desc 18 1 = act → (act = 1 ∧ i = .ringDisableDrain e ∨ act = 2 ∧ i = .ringDisableEnd e) →
        ringAllowed s en = true → ringOf s id = some r → id ≠ 0 → r.enabled = true → r.disabling = none →
        ∃ u r', exec i s = .next (settleDisables u) ∧ ringOf u id = some r' ∧ r'.enabled = false ∧ r'.disabling = some (act, e) ∧
          r'.h = r.h ∧ r'.nw = r.nw ∧ (∀ y, s.ledger.entries = [en, y] → y.n ≠ e → act = 2 → y.ring = id → y.adopted = false →
            y.st = .running → y.result = none → descClass y.desc = 1 → hasFloor (descOp y.desc) = true → descOp y.desc ≠ 0x49 →
            Ended u y.n 0x06 y.position.toNat 0))) ∧
    (MapRun s e 0x20 en → ∀ r : RoomId, r = BitVec.ofNat 8 (descField en.desc 16 1) →
      (entryRoom en ≠ 0 → ∃ u, exec (.compose e x p) s = .next (settle u) ∧ Ended u e 0x03 0 0 ∧ u.rooms = s.rooms) ∧
      (∀ y, entryRoom en = 0 → roomOf s r = some y → y.holder = selfId s → y.waiting = none → en.replayed = false →
        descField en.desc 17 1 / 2 % 2 = 1 → (listRead s en x (descWord en.desc 20) 256).status = 0x00 →
        (descField en.desc 17 1 % 2 = 0 → ∃ u z v, exec (.compose e x p) s = .next (settle u) ∧ Ended u e 0x00 0 v ∧
          roomOf u r = some z ∧ z = { y with staged := z.staged } ∧
          (z.staged.map fun w => (w.1.switch, w.2)) = ((y.staged.filter fun w =>
            w.1.switch != BitVec.ofNat 16 (descField en.desc 18 2)).map fun w => (w.1.switch, w.2)) ++
              [(BitVec.ofNat 16 (descField en.desc 18 2), true)]) ∧
        (descField en.desc 17 1 % 2 = 1 → y.commit = none → y.older = none → (∃ w ∈ y.cur, w.switch ≠ selfId s) →
          s.fab.unrouted = [] → ∃ u z, exec (.compose e x p) s = .next (settle u) ∧ roomOf u r = some z ∧ z.current = y.current ∧
            z.cur = y.cur ∧ z.staged = [] ∧ (z.commit.map fun c => (c.epoch, c.step, c.acked)) =
              some (nextEpoch y.current, 1, [selfId s])))) ∧
    (MapRun s e 0x23 en → ∀ r : RoomId, r = BitVec.ofNat 8 (descField en.desc 28 1) →
      (fromRoom en r = false → ∃ u, exec (.domainSet e x) s = .next (settle u) ∧ Ended u e 0x03 0 0 ∧ OnlyEntry s u e) ∧
      (fromRoom en r = true → (s.rooms.changes.any fun c => c.e == some en.n) = false →
        (listRead s en x (descWord en.desc 16) (4 * descField en.desc 24 4)).status = 0x00 →
        ∃ u c, exec (.domainSet e x) s = .next (settle u) ∧ u.rooms.changes = s.rooms.changes ++ [c] ∧ c.e = some e ∧ c.room = r ∧
          c.idx = BitVec.ofNat 8 (descField en.desc 29 1) ∧ (∀ a ∈ c.agents, isMember s a r = true) ∧ u.rooms.domains = s.rooms.domains)) ∧
    (MapRun s e 0x24 en → ∀ r : RoomId, r = BitVec.ofNat 8 (descField en.desc 16 1) →
      (entryRoom en ≠ 0 ∨ isMapHolder s r = false → Answers s (.roomLimit e) fun t => Ended t e 0x03 0 0 ∧ OnlyEntry s t e) ∧
      (∀ y, entryRoom en = 0 → roomOf s r = some y → y.holder = selfId s → Answers s (.roomLimit e) fun t =>
        t.maps = s.maps ∧ t.pool = s.pool ∧ (∃ v, Ended t e 0x00 0 v) ∧ roomOf t r = some { y with
          rate := limitRate s r (descField en.desc 20 4), burst := descField en.desc 24 4, beRate := descField en.desc 28 4 } ∧
        ∀ z ∈ y.old ++ y.cur, z.switch ≠ selfId s → Out.event 13 z.switch.toNat ∈ t.out)) ∧
    (MapRun s e 0x2A en → ∀ r : RoomId, r = BitVec.ofNat 8 (descField en.desc 16 1) →
      (entryRoom en ≠ 0 ∨ isMapHolder s r = false → Answers s (.roomTier e) fun t => Ended t e 0x03 0 0 ∧ OnlyEntry s t e) ∧
      (∀ y, entryRoom en = 0 → roomOf s r = some y → y.holder = selfId s → Answers s (.roomTier e) fun t =>
        t.maps = s.maps ∧ t.pool = s.pool ∧ (∃ v, Ended t e 0x00 0 v) ∧ roomOf t r = some { y with
          unified := descField en.desc 17 1 == 1, thr := descField en.desc 18 1, interval := descField en.desc 20 4
          hi0 := descField en.desc 24 1, lo0 := descField en.desc 25 1, hi1 := descField en.desc 26 1
          lo1 := descField en.desc 27 1 } ∧
        ∀ z ∈ y.old ++ y.cur, z.switch ≠ selfId s → Out.event 13 z.switch.toNat ∈ t.out))

/-- R39, R41, R44, R128, R135, R142, R143, R146, R168, R173 and R179: descriptors about extents, lines, versions, sync objects and tiles,
each on an entry that runs. A Free extent is bound with its 32 tiles; a Bound one drains from this instant; an owner-lost line becomes
zeros, or poisoned; a version is cut and journalled; a handle opens on a version and stays open for its time; a sync object is bound
with the value 0, or released; a tile that may move is booked to its tier; a tile takes its layout; a stream of layers begins, once
the lines of its list, one LD for each, have been answered. Of another
home's, or from a room that may not ask for it, each ends with 0x03 and does nothing else; elastic work on a Draining extent ends with 0x06.
The model's own choices in it: log entries 13, 41, 55, 58, 134 and 145. -/
def Obligations.MapDescriptorsTakeEffect : Prop :=
  ∀ (s : State) (e : Nat) (en : Entry) (x : Cells), let g := descWord en.desc 16; let key := g.toNat / 2 ^ 21
    (MapRun s e 0x21 en → ∀ r : RoomId, r = BitVec.ofNat 8 (descField en.desc 28 1) →
      (fromRoom en r = false ∨ isHome s (homeOf g) = false → Answers s (.extentBind e) fun t => Ended t e 0x03 0 0 ∧ OnlyEntry s t e) ∧
      (fromRoom en r = true → isHome s (homeOf g) = true → descField en.desc 24 4 = 1 →
        (extentOf s key ≠ none → Answers s (.extentBind e) fun t => Ended t e 0x00 0 1 ∧ OnlyEntry s t e) ∧
        (∀ u, extentOf s key = none → key % 2 ^ 27 ≠ 0 → isHome s (BitVec.ofNat 16 (key / 2 ^ 27)) = true →
          descField en.desc 30 1 % 4 < 3 → 32 ≤ quotaFree s r (descField en.desc 30 1 % 4) →
          placeOn s r (descField en.desc 30 1 % 4) 32 = some u →
          Answers s (.extentBind e) fun t => Ended t e 0x00 1 0 ∧ t.pool = s.pool ∧ t.rooms = s.rooms ∧
            t.maps.exts.length = s.maps.exts.length + 1 ∧ t.maps.tiles.length = s.maps.tiles.length + 32 ∧
            (∃ y, extentOf t key = some y ∧ y.st = .bound ∧ y.room = r ∧ y.domain = BitVec.ofNat 8 (descField en.desc 29 1)) ∧
            ((∀ k < 32, tileOf s (key * 32 + k) = none) → ∀ k < 32, ∃ z, tileOf t (key * 32 + k) = some z ∧
              z.res.tier = descField en.desc 30 1 % 4 ∧ z.res.unit = u ∧ z.mig = .settled)))) ∧
    (MapRun s e 0x22 en → (isHome s (homeOf g) = false → ∃ u, exec (.extentRevoke e) s = .next (settle u) ∧ Ended u e 0x03 0 0 ∧
        OnlyEntry s u e) ∧
      (∀ k y, isHome s (homeOf g) = true → en.pendingWork = 0 → revokeKeys en.desc = [k] → k % 2 ^ 27 ≠ 0 →
        isHome s (BitVec.ofNat 16 (k / 2 ^ 27)) = true → extentOf s k = some y → y.st = .bound →
        (entryRoom en = 0 ∨ entryRoom en = y.room) → (∀ m ∈ movers s, m.key / 32 ≠ k) → NoWaiters s →
        ∃ u, exec (.extentRevoke e) s = .next (settle u) ∧ u.pool = s.pool ∧
          ∃ z, extentOf u k = some z ∧ z.st = .draining ∧ z.tD = s.time.now ∧ z.reqs = trackedOn s k ∧ z.room = y.room)) ∧
    (CanRun s e 0x25 en → en.position = 0 → en.tally = [] → descField en.desc 24 4 = 1 → ∀ y, extentOf s (extKey g) = some y →
      (isHome s (homeOf g) = false ∨ fromRoom en y.room = false → Answers s (.lineClear e) fun t => Ended t e 0x03 0 0 ∧ OnlyEntry s t e) ∧
      (isHome s (homeOf g) = true → fromRoom en y.room = true →
        (y.st = .draining → Answers s (.lineClear e) fun t => Ended t e 0x06 (64 * lineKey g) 0 ∧ OnlyEntry s t e) ∧
        (y.st ≠ .draining → writesHeld s (lineKey g) = false →
          (markOf s (lineKey g) ≠ some .ownerLost → Answers s (.lineClear e) fun t => Ended t e 0x00 0 1 ∧ OnlyEntry s t e) ∧
          (markOf s (lineKey g) = some .ownerLost → s.pool.upsets = [] → Answers s (.lineClear e) fun t => Ended t e 0x00 1 0 ∧
            t.dir = s.dir ∧
            (descField en.desc 28 1 ≠ 1 → t.pool.mem = s.pool.mem ∧ (lineKey g, Mark.poisoned) ∈ t.pool.marks) ∧
            (descField en.desc 28 1 = 1 → Memory.wf s.pool.mem = true → ∀ a, readByte t.pool.mem a =
              if lineKey g * 64 ≤ a ∧ a < lineKey g * 64 + 64 then 0 else readByte s.pool.mem a))))) ∧
    (MapRun s e 0x26 en → (isHome s (homeOf g) = false → Answers s (.snapCut e) fun t => Ended t e 0x03 0 0 ∧ OnlyEntry s t e) ∧
      (isHome s (homeOf g) = true →
        (∀ v, en.replayed = true → appliedOf s en = some v → Answers s (.snapCut e) fun t => Ended t e 0x00 v.1.toNat v.2.toNat ∧
          OnlyEntry s t e) ∧
        (∀ k y v, en.replayed = false → snapKeys en.desc = [k] → extentOf s k = some y → y.st = .bound →
          (entryRoom en = 0 ∨ y.room = entryRoom en) →
          v = reclaimVersions { s with maps := { s.maps with
            versions := s.maps.versions ++ [{ cut := s.maps.nextCut, tC := stamp s 17, exts := [k] }]
            nextCut := if s.maps.nextCut + 1 = 0 then 1 else s.maps.nextCut + 1 } } →
          Answers s (.snapCut e) fun t => Ended t e 0x00 s.maps.nextCut.toNat (coverWord 1 0) ∧ t.maps = v.maps ∧ t.pool = v.pool ∧
            t.fab = s.fab ∧ t.dir = s.dir ∧ t.ledger.journal.length = s.ledger.journal.length + 1))) ∧
    (MapRun s e 0x27 en → (isHome s (homeOf g) = false → Answers s (.snapOpen e) fun t => Ended t e 0x03 0 0 ∧ OnlyEntry s t e) ∧
      (isHome s (homeOf g) = true → descField en.desc 38 1 % 2 = 1 → ∀ y,
        s.maps.handles.find? (fun z => z.h == BitVec.ofNat 16 (descField en.desc 36 2) && z.room == entryRoom en) = some y →
        Answers s (.snapOpen e) fun t => Ended t e 0x00 (handleWord y.h y.cut) (coverWord y.exts.length 0) ∧ t.pool = s.pool ∧
          t.maps.handles = s.maps.handles.map fun z => if z.h = y.h
            then { z with until_ := s.time.now + descField en.desc 32 4 * 1000000 } else z) ∧
      (isHome s (homeOf g) = true → descField en.desc 38 1 % 2 = 0 → ∀ v h, descField en.desc 28 4 ≠ 0 →
        versionOf s (BitVec.ofNat 32 (descField en.desc 28 4)) = some v → freeHandle s = some h →
        (snapKeys en.desc).filter (fun k => v.exts.contains k) ≠ [] →
        Answers s (.snapOpen e) fun t => t.pool = s.pool ∧ t.maps.versions = s.maps.versions ∧
          Ended t e 0x00 (handleWord h v.cut) (coverWord ((snapKeys en.desc).filter fun k => v.exts.contains k).length
            ((snapKeys en.desc).length - ((snapKeys en.desc).filter fun k => v.exts.contains k).length)) ∧
          t.maps.handles = s.maps.handles ++ [{ h := h, room := entryRoom en, cut := v.cut
                                                exts := (snapKeys en.desc).filter fun k => v.exts.contains k
                                                until_ := s.time.now + descField en.desc 32 4 * 1000000 }])) ∧
    (MapRun s e 0x28 en → let h : BitVec 16 := BitVec.ofNat 16 (descField en.desc 36 2)
      ((s.maps.handles.any fun y => y.h == h && y.room == entryRoom en) = false →
        Answers s (.snapClose e) fun t => Ended t e 0x00 0 0 ∧ OnlyEntry s t e) ∧
      ((s.maps.handles.any fun y => y.h == h && y.room == entryRoom en) = true →
        Answers s (.snapClose e) fun t => Ended t e 0x00 0 0 ∧ t.pool.mem = s.pool.mem ∧
          t.maps.handles = s.maps.handles.filter fun y => y.h != h)) ∧
    (∀ h : BitVec 16, (∀ y ∈ s.maps.handles, y.h = h → s.time.now < y.until_) → exec (.handleExpiry h) s = .next s) ∧
    (∀ h : BitVec 16, MirrorStands s → (∃ y ∈ s.maps.handles, y.h = h ∧ y.until_ ≤ s.time.now) → Answers s (.handleExpiry h) fun t =>
      t.pool.mem = s.pool.mem ∧ t.maps.handles = s.maps.handles.filter fun y => y.h != h) ∧
    (MapRun s e 0x29 en → ∀ r : RoomId, r = BitVec.ofNat 8 (descField en.desc 24 1) →
      (fromRoom en r = false → Answers s (.syncBind e) fun t => Ended t e 0x03 0 0 ∧ OnlyEntry s t e) ∧
      (fromRoom en r = true → descField en.desc 20 4 = 1 → let n := descField en.desc 16 4
        (∀ o, descField en.desc 26 1 % 2 = 0 → syncObjOf s n = some o → Answers s (.syncBind e) fun t => Ended t e 0x00 0 1 ∧
          OnlyEntry s t e) ∧
        (descField en.desc 26 1 % 2 = 0 → syncObjOf s n = none → Answers s (.syncBind e) fun t => Ended t e 0x00 1 0 ∧ t.maps = s.maps ∧
          t.pool = s.pool ∧ t.sync.waiters = s.sync.waiters ∧ ∃ o, syncObjOf t n = some o ∧ o.room = r ∧
            o.domain = BitVec.ofNat 8 (descField en.desc 25 1) ∧ o.value = 0) ∧
        (∀ o, descField en.desc 26 1 % 2 = 1 → syncObjOf s n = some o → o.room = r → (∀ w ∈ s.sync.waiters, w.n ≠ n) → NoWaiters s →
          Answers s (.syncBind e) fun t => Ended t e 0x00 1 0 ∧ t.maps = s.maps ∧ t.pool = s.pool ∧ syncObjOf t n = none ∧
            ∀ k, k ≠ n → syncObjOf t k = syncObjOf s k))) ∧
    (MapRun s e 0x2B en → (isHome s (homeOf g) = false → ∃ u, exec (.migrate e) s = .next (settleAll u) ∧ Ended u e 0x03 0 0 ∧
        OnlyEntry s u e) ∧
      (∀ y z, isHome s (homeOf g) = true → en.pendingWork = 0 → descField en.desc 24 4 = 1 → descField en.desc 30 1 % 8 = 0 →
        extentOf s (tileKey g / 32) = some y → tileOf s (tileKey g) = some z → moversOf s (tileKey g) = [headMover z] →
        descField en.desc 29 1 ≠ 0xFF → (entryRoom en = 0 ∨ tileRoom s (tileKey g) = entryRoom en) →
        bookMove s (tileKey g) (descField en.desc 28 1) (some (descField en.desc 29 1)) (some e) ≠ none →
        ∃ u, exec (.migrate e) s = .next (settleAll u) ∧ u.pool = s.pool ∧ tileOf u (tileKey g) = some { z with
          mig := .booked, dest := some (residenceOn y (descField en.desc 28 1) (descField en.desc 29 1)), dirty := [], porter := none
          work := some e })) ∧
    (MapRun s e 0x2C en → streamOf s e = none → ∀ r n, r = listRead s en x g (32 * n) → n = descField en.desc 24 2 →
      let layers := (List.range n).map fun i => readLayer s en ((r.bytes.drop (32 * i)).take 32)
      (isLack r.status = true → OwnIdle s → (linesOf g (32 * n)).length ≤ 512 → (∀ l ∈ linesOf g (32 * n),
        isHome s (homeOf (lineGfa l)) = false ∧ extentOf s (l / 32768) = none) → ∃ u ps, exec (.weightStream e x) s = .next (settleAll u) ∧
          u.maps = s.maps ∧ u.pool = s.pool ∧ Formed s u ps ∧ ps.map (fun p => (p.opcode, p.w2, p.room)) =
            (linesOf g (32 * n)).map (fun l => (0x00, lineGfa l, entryRoom en)) ∧ ∃ y, ledgerEntry u e = some y ∧ y.result = none) ∧
      (isLack r.status = false → r.status ≠ 0x00 → ∃ u, exec (.weightStream e x) s = .next (settleAll u) ∧ OnlyEntry s u e ∧
        Ended u e (BitVec.ofNat 8 r.status) 0 0) ∧
      (r.status = 0x00 → layers.any (foreignLayer s en) = true → ∃ u, exec (.weightStream e x) s = .next (settleAll u) ∧
        OnlyEntry s u e ∧ Ended u e 0x03 0 0) ∧
      (r.status = 0x00 → layers.any (foreignLayer s en) = false →
        ∃ u v, exec (.weightStream e x) s = .next (settleAll u) ∧ u.pool = s.pool ∧ streamOf u e = some v ∧ v.layers = layers ∧
          v.passes = descField en.desc 28 4 ∧ v.todo = [] ∧ v.schedule = (descField en.desc 26 1 == 1) ∧
          1 ≤ v.window ∧ v.window ≤ max 1 (descField en.desc 27 1))) ∧
    (MapRun s e 0x2D en → (isHome s (homeOf g) = false → Answers s (.tileFormat e) fun t => Ended t e 0x03 0 0 ∧ OnlyEntry s t e) ∧
      (descField en.desc 24 4 = 1 → isHome s (homeOf g) = true → ∀ z, tileOf s (tileKey g) = some z →
        (entryRoom en = 0 ∨ tileRoom s (tileKey g) = entryRoom en) →
        (meetsDrain s e (tileGfa (tileKey g)) = false → Answers s (.tileFormat e) fun t => Ended t e 0x00 1 0 ∧
          t.pool = s.pool ∧ t.rooms = s.rooms ∧ tileOf t (tileKey g) = some { z with
            layout := BitVec.ofNat 128 (descField en.desc 28 16)
            table := if descField en.desc 30 1 = 0 then z.table else descWord en.desc 44 }) ∧
        (meetsDrain s e (tileGfa (tileKey g)) = true → Answers s (.tileFormat e) fun t => Ended t e 0x06 (tileKey g * 65536) 0 ∧
          t.pool = s.pool ∧ t.rooms = s.rooms ∧ t.maps = s.maps))) ∧
    (∀ op i, CanRun s e op en → journalFull s = true → (op, i) ∈ [(0x21, Instr.extentBind e), (0x24, .roomLimit e), (0x26, .snapCut e),
      (0x27, .snapOpen e), (0x28, .snapClose e), (0x29, .syncBind e), (0x2A, .roomTier e), (0x2D, .tileFormat e)] →
      Answers s i fun t => e ∈ t.ledger.journalWait ∧ t.maps = s.maps ∧ t.rooms = s.rooms ∧ t.sync = s.sync ∧
        ∃ y, ledgerEntry t e = some y ∧ y.result = none)

/-- R194, R201, R202, R204 and R205: doorbells and fetch. A doorbell from where its ring lies moves the tail or the head, in its range; any
other is counted and ignored; a head past the records written becomes n_w. A ring is fetched only while R204 allows it, in sequence:
the slot of sequence h is taken, clamped and tested, and h advances; a slot of another sequence stops the ring and is counted. The slot of
a fabric ring is read by a volatile LD in the room's epoch.
The model's own choices in it: log entries 10 and 66. -/
def Obligations.RingsAreFetchedInSequence : Prop :=
  ∀ (s : State) (id : BitVec 12) (r : Ring), isRunning s = true → ringOf s id = some r → MirrorStands s →
    (let ringsOnly (t : State) : Prop := t = { s with ledger := { s.ledger with rings := t.ledger.rings } }
    (∀ (fn : Option Nat) (v : BitVec 32), (r.fabric = fn.isNone ∧ (r.fabric = true ∨ fn = some r.fn)) → r.enabled = true →
      (Answers s (.headDoorbell id fn v) fun t => ringsOnly t ∧ ringOf t id = some (
        if (v - r.head).toNat ≤ (r.nw - r.head).toNat then { r with head := v }
        else { r with head := r.nw, dbIgnored := r.dbIgnored + 1 })) ∧
      (2 ^ r.d < (v - r.h).toNat → r.tail = r.h → r.tailMirrored = r.h →
        Answers s (.tailDoorbell id fn v []) fun t => ringsOnly t ∧ ringOf t id = some { r with dbIgnored := r.dbIgnored + 1 }) ∧
      ((v - r.h).toNat ≤ 2 ^ r.d → r.fabric = false → Answers s (.tailDoorbell id fn v []) fun t => t.pool = s.pool ∧ t.maps = s.maps ∧
        t.ledger.entries = s.ledger.entries ∧ ∃ r', ringOf t id = some r' ∧ r'.tail = v ∧ r'.h = r.h ∧ r'.dbIgnored = r.dbIgnored)) ∧
    (∀ (n : Nat) (v : BitVec 32), r.fabric = true ∨ r.fn ≠ n → Answers s (.headDoorbell id (some n) v) fun t => ringsOnly t ∧
      ringOf t id = some { r with dbIgnored := r.dbIgnored + 1 }) ∧
    (mayFetch s r = false → ∀ slots, exec (.fetchResume id slots) s = .next s) ∧
    (mayFetch s r = true → r.fabric = true → OwnIdle s → let g := r.dbase + BitVec.ofNat 64 (64 * (r.h.toNat % 2 ^ r.d))
      isHome s (homeOf g) = false → Answers s (.fetchResume id []) fun t => t.ledger = s.ledger ∧ t.pool = s.pool ∧ ∃ p, Formed s t [p] ∧
        p.opcode = 0x00 ∧ p.w2 = g ∧ p.w3.extractLsb' 63 1 = 1 ∧ p.w3.extractLsb' 56 7 = 63 ∧ p.room = r.room ∧
        p.tag = BitVec.ofNat 20 ((512 + id.toNat % 2) * 512)) ∧
    (mayFetch s r = true → r.fabric = false → ∀ (d : BitVec 512) (l : List (BitVec 512)),
      (descSeq d ≠ r.h → Answers s (.fetchResume id (d :: l)) fun t => ringsOnly t ∧
        ringOf t id = some { r with stale := r.stale + 1, staleAt := some s.time.now }) ∧
      (descSeq d = r.h → ∀ c, c = clampDesc s r.room (stamp s 18) d → Answers s (.fetchResume id (d :: l)) fun t => t.pool = s.pool ∧
        (∃ r', ringOf t id = some r' ∧ r'.h = r.h + 1 ∧ r'.tail = r.tail ∧ r'.clamps = r.clamps + c.count) ∧
        ∃ en, ledgerEntry t (freeEntry s) = some en ∧ en.desc = c.d ∧ en.ring = id ∧ en.st = .mirroring ∧ en.clamps = c.count ∧
          (s.hlth.state = .retiring → ∃ f, en.result = some f ∧ f.status = 0x02 ∧ f.byte5 = 0x07) ∧
          (s.hlth.state ≠ .retiring → mirrorTarget s ≠ 0 → descOp c.d = 0x00 → descClass c.d = 2 → roomHolds s c.d = true → en.result = none))) ∧
    (∀ at_ slots, r.staleAt = some at_ →
      (s.time.now < at_ + 100000 → exec (.staleSlotReread id slots) s = .next s) ∧
      (at_ + 100000 ≤ s.time.now → r.tail = r.tailMirrored → (r.tail - r.h).toNat = 1 →
        exec (.staleSlotReread id slots) s = exec (.fetchResume id slots) s)))

/-- R207, R208, R210, R212, R329, R345, R346 and R349: from the test to the release of an entry. It is accepted when it is mirrored,
and refused with reason 0x07 where nothing can hold its mirror; a progress record is written only while a slot stays for a final
one; the final record is written once, its status and words as the result gives them; when it is in place its entry is released and the
ring's vector is signalled if the descriptor asks for it; a passed promise is counted once.
The model's own choices in it: log entries 17, 67, 72, 75 and 148. -/
def Obligations.EntriesGoThroughTheirStates : Prop :=
  ∀ (s : State) (e : Nat) (en : Entry), isRunning s = true → ledgerEntry s e = some en → MirrorStands s →
    (en.st = .mirroring → en.result = none → s.ledger.target ≠ 0 →
      (refusedBefore s en = true ∨ awaits s (.mirror 2 e) = true → exec (.mirrorAck e) s = .next s) ∧
      (refusedBefore s en = false → awaits s (.mirror 2 e) = false →
        (∀ x ∈ s.ledger.entries, x.ring = en.ring → x.n ≠ e → x.st ≠ .mirroring) → descOp en.desc ∉ [0x41, 0x42, 0x49, 0x4A, 0x70, 0x74, 0x75] → Answers s (.mirrorAck e) fun t =>
        ledgerEntry t e = some { en with st := .accepted, epoch := currentEpoch s (entryRoom en) } ∧
        t = { s with ledger := { s.ledger with entries := t.ledger.entries }, time := { s.time with accepted := true } })) ∧
    (en.st = .mirroring → en.result = none → mirrorTarget s = 0 → Answers s (.mirrorRetry e false) fun t =>
      t.pool = s.pool ∧ t.innk.refused = s.innk.refused + 1 ∧
      ∃ x f, ledgerEntry t e = some x ∧ x.result = some f ∧ f.status = 0x02 ∧ f.byte5 = 0x07) ∧
    (s.ledger.target ≠ 0 → let en' := { en with
        serial := s.ledger.mirrorSerial + 1, writtenAt := s.time.now
        epoch := if en.st = .mirroring then currentEpoch s (entryRoom en) else en.epoch }
      Answers s (.mirrorRetry e false) fun t =>
      ledgerEntry t e = some en' ∧ t.ledger.mirrorSerial = s.ledger.mirrorSerial + 1 ∧ t.out = s.out ++ [.mirror 2 e (entryImage en')] ∧
      t = { s with ledger := { s.ledger with entries := t.ledger.entries, mirrorSerial := t.ledger.mirrorSerial }, out := t.out }) ∧
    (∀ r, ringOf s en.ring = some r → en.share = false → en.started = true → en.result = none → descBit en.desc 14 = true → descClass en.desc ≠ 0 →
      en.adopted = false → en.progAt + 1000 * r.pint ≤ s.time.now →
      (2 ^ r.c - 1 ≤ (r.nw - r.head).toNat + openFinals s r.id → Answers s (.progressInterval e) fun t => t.out = s.out ∧
        ringOf t en.ring = some { r with skipped := r.skipped + 1 } ∧ t.maps = s.maps ∧ t.pool = s.pool) ∧
      ((r.nw - r.head).toNat + openFinals s r.id < 2 ^ r.c - 1 → r.fabric = false → s.mgmt.link = true → Answers s (.progressInterval e) fun t =>
        (∃ r', ringOf t en.ring = some r' ∧ r'.nw = r.nw + 1 ∧ r'.skipped = r.skipped) ∧ t.maps = s.maps ∧ t.pool = s.pool ∧
        ∃ v, Out.record r.id (some r.fn) (r.cbase + BitVec.ofNat 64 (32 * (r.nw.toNat % 2 ^ r.c))) v ∈ t.out ∧
          v.extractLsb' 0 32 = descSeq en.desc ∧ v.extractLsb' 32 8 = 0x07) ∧
      (∀ v, r.fabric = true → OwnIdle s → isHome s (homeOf (r.cbase + BitVec.ofNat 64 (32 * (r.nw.toNat % 2 ^ r.c)))) = false →
        v = recordBits (descSeq en.desc) 0x07 ((if en.replayed then 1 else 0) + 128 * phaseBit r.nw r.c)
          (max en.progress (min 10000 (progressNow s en).1)) (stamp s (frontEndIsland r.id)) (BitVec.ofNat 64 (progressNow s en).2) 0 →
        (r.nw - r.head).toNat + openFinals s r.id < 2 ^ r.c - 1 → Answers s (.progressInterval e) fun t => t.pool = s.pool ∧
          t.maps = s.maps ∧ ∃ p, Formed s t [p] ∧ p.opcode = 0x08 ∧ p.ocls = 0b01 ∧
            p.w2 = r.cbase + BitVec.ofNat 64 (32 * (r.nw.toNat % 2 ^ r.c)) ∧ p.data = leBytes 32 v.toNat)) ∧
    (∀ r f, ringOf s en.ring = some r → en.result = some f → en.recorded = false → en.adopted = false → en.st = .resultHeld →
      r.fabric = false → OwnIdle s → s.ledger.target ≠ 0 → recordFits r = true → s.boot.roomResets = [] → s.mgmt.link = true →
      f.progress ≤ 10000 → en.doneAt < 2 ^ 64 →
      (en.missed = true ∨ stamp s (frontEndIsland en.ring) ≤ en.promise) → Answers s (.finalRecord e) fun t => t.pool = s.pool ∧ t.maps = s.maps ∧
        ledgerEntry t e = some { en with recorded := true } ∧ (∃ r', ringOf t en.ring = some r' ∧ r'.nw = r.nw + 1) ∧
        ∃ v, Out.record r.id (some r.fn) (r.cbase + BitVec.ofNat 64 (32 * (r.nw.toNat % 2 ^ r.c))) v ∈ t.out ∧
          v.extractLsb' 0 32 = descSeq en.desc ∧ v.extractLsb' 32 8 = f.status ∧ v.extractLsb' 128 64 = f.r16 ∧
          v.extractLsb' 192 64 = f.r24 ∧ v.extractLsb' 47 1 = BitVec.ofNat 1 (phaseBit r.nw r.c)) ∧
    (en.recorded = true → exec (.finalRecord e) s = .next s) ∧
    (en.recorded = false → exec (.finalRecordAck e) s = .next s) ∧
    (∀ r, ringOf s en.ring = some r → r.fabric = false → en.recorded = true → s.mgmt.link = true → en.adopted = false →
      en.st = .resultHeld → doneObj en.desc = none → awaits s (.record en.ring) = false → s.ledger.target ≠ 0 →
      ∃ u, exec (.finalRecordAck e) s = .next (settleRetiring (settleDisables (settleFlr (settleAll (pump (mirrorHeld u en.ring)))))) ∧
        ledgerEntry u e = none ∧ (∀ k, k ≠ e → ledgerEntry u k = ledgerEntry s k) ∧ u.pool = s.pool ∧
        u.out = s.out ++ (if descBit en.desc 13 then [.msix r.fn r.vector] else []) ++ [.mirror 2 e 0]) ∧
    (en.st ≠ .mirroring → en.result = none → descClass en.desc ≠ 2 → en.missed = false → en.promise < stamp s (frontEndIsland en.ring) →
      Answers s (.descriptorDeadline e) fun t => ledgerEntry t e = some { en with missed := true } ∧ t.hlth.serial = s.hlth.serial + 1 ∧
        t.rooms.rooms.map (fun x => (x.id, x.misses)) = s.rooms.rooms.map (fun x =>
          (x.id, if x.id = entryRoom en then x.misses + 1 else x.misses)) ∧ t.maps = s.maps ∧ t.pool = s.pool) ∧
    (en.missed = true → exec (.descriptorDeadline e) s = .next s) ∧
    (∀ n, exec (.mapJournalCompact n) s = .next { s with ledger := { s.ledger with journalUsed := s.ledger.journalUsed - n } })

namespace Sys2Proof.Machine

/-- No stage of a caravan goes on of itself: each is programmed and open, and waits for a core of its own. -/
def RunStands (v : Caravan) : Prop :=
  v.stages ≠ [] ∧ ∀ g ∈ v.stages, g.builtin = none ∧ g.closed = false ∧
    (g.doneCores.filter fun c => g.clusters.contains c.cluster).length < g.clusters.length * g.usedCores

/-- The work of entry `e` can go on in `w`: it has no result and lacks no answer, and what the mirror takes leaves as such. -/
def Stands (w : State) (e : Nat) : Prop :=
  w.own.need = [] ∧ w.ledger.target ≠ 1 ∧ ∃ y, ledgerEntry w e = some y ∧ y.result = none

/-- From `w` to `t` only the ledger, the mirror and the answers of a unit's reads change. -/
def Keeps (t w : State) : Prop :=
  t.pool = w.pool ∧ t.maps = w.maps ∧ t.dir = w.dir ∧ t.engine = w.engine ∧ t.rooms = w.rooms ∧ t.filt = w.filt ∧ t.coll = w.coll

/-- In `t` the work of entry `e` goes on with item `item`, and a replay with `ck`. -/
def GoesOn (t : State) (e item ck : Nat) : Prop :=
  ∃ y, ledgerEntry t e = some y ∧ y.result = none ∧ nextItem y = item ∧ y.checkpoint = BitVec.ofNat 64 ck

/-- A context in round `r`. -/
def inRound (c : Context) (r : Round) : Context := { c with round := some r }

/-- From `s` to `t` the only context becomes `d`, and nothing else changes. -/
def OnlyContext (s t : State) (d : Context) : Prop := t = { s with coll := { s.coll with ctxs := [d] } }

/-- A packet that a collective unit discards and counts. -/
def discarded (s : State) : State := { s with coll := { s.coll with discarded := s.coll.discarded + 1 } }

end Sys2Proof.Machine

/-- R223, R225, R235, R238 and R239: a caravan is tested, opened on clusters that its room has free, runs one descriptor at a time and is
closed when its runs are done. A record of another kind ends the descriptor with status 0x03, one that cannot be placed with the refusal
of its test; so does a caravan that is not open. The source reader brings stage 0 the next record while its pool has room; it
waits while it has none, and ends after the last one.
The model's own choices in it: log entries 13, 29, 30 and 74. -/
def Obligations.CaravansOpenRunAndClose : Prop :=
  ∀ (s u : State) (e : Nat) (en : Entry) (x : Cells), u = startEntry s e →
    (ledgerEntry s e = some en → untested s en 0x40 = true → s.own.need = [] → MirrorStands s → refusedBefore s en = false →
      ∀ asked edges k, readCaravan s en x = .inl (asked, edges, k) →
        (placeCaravan s en asked = none → Answers s (.caravanOpen e x) fun t => ∃ z f, ledgerEntry t e = some z ∧
          z.result = some f ∧ f.status = 0x02 ∧ f.byte5 = 0x06 ∧ t.engine = s.engine ∧ t.pool = s.pool) ∧
        (∀ stages, placeCaravan s en asked = some stages → Answers s (.caravanOpen e x) fun t => t.engine = s.engine ∧ t.pool = s.pool ∧
          ∃ z, ledgerEntry t e = some z ∧ z.tested = true ∧ z.result = none ∧ z.claims = stages.flatMap fun g => g.clusters)) ∧
    (CanRun s e 0x40 en →
      (∀ head, head = listRead u en x (descWord en.desc 16) 64 → head.status = 0x00 → leAt head.bytes 0 2 ≠ 1 →
        Answers s (.caravanOpen e x) fun t => Ended t e 0x03 0 0 ∧ OnlyEntry s t e) ∧
      (∀ st v, readCaravan u en x = .inr (st, v) → isLack st = false → Answers s (.caravanOpen e x) fun t =>
        Ended t e (BitVec.ofNat 8 st) 0 v ∧ OnlyEntry s t e) ∧
      (∀ asked edges k, readCaravan u en x = .inl (asked, edges, k) →
        (placeCaravan (recordClamps u en k) en asked = none → Answers s (.caravanOpen e x) fun t => Ended t e 0x04 0 0 ∧ t.engine = s.engine) ∧
        (∀ stages, placeCaravan (recordClamps u en k) en asked = some stages → Answers s (.caravanOpen e x) fun t =>
          t.pool = s.pool ∧ t.maps = s.maps ∧ Ended t e 0x00 (freeCaravan s) (stages.map fun g => g.clusters.length).sum ∧
          t.engine = { s.engine with caravans := s.engine.caravans ++
            [{ id := freeCaravan s, room := entryRoom en, stages := stages, edges := edges }] }))) ∧
    (CanRun s e 0x41 en → (s.engine.caravans.any fun v => v.id == descField en.desc 16 1 && fromRoom en v.room) = false →
      Answers s (.caravanRun e x) fun t => Ended t e (if en.replayed then 0x04 else 0x03) 0 0 ∧ OnlyEntry s t e) ∧
    (CanRun s e 0x41 en → MirrorStands s → ∀ v, s.engine.caravans = [v] → v.id = descField en.desc 16 1 → fromRoom en v.room = true → v.run = none →
      (runBefore u en v.id = true → exec (.caravanRun e x) s = .next (dropGot u (.work e))) ∧
      (runBefore u en v.id = false → (v.stages.any fun g => g.clusters.isEmpty) = true →
        Answers s (.caravanRun e x) fun t => Ended t e 0x04 0 0 ∧ OnlyEntry s t e) ∧
      (runBefore u en v.id = false → RunStands v → Answers s (.caravanRun e x) fun t => t.pool = s.pool ∧ t.maps = s.maps ∧
        (∃ r, t.engine.caravans = [{ v with run := some r }] ∧ r.e = en.n ∧ r.nextRec = 0 ∧ r.recSize = descField en.desc 20 4 ∧
          r.src = descWord en.desc 24 ∧ r.srcLen = descField en.desc 32 8 ∧ r.sink = descWord en.desc 40 ∧ r.sinkCap = descField en.desc 48 8) ∧
        (∀ g ∈ v.stages, ∀ k ∈ startCores g, k ∈ t.engine.cores ∧ k.pc = BitVec.ofNat 16 g.entry ∧ k.st = .running) ∧
        ((v.stages.any fun g => g.rerunUnsafe) = true → ∃ z, ledgerEntry t e = some z ∧ z.rerunStarted = true))) ∧
    (CanRun s e 0x42 en → ((s.engine.caravans.any fun v => v.id == descField en.desc 16 1 && fromRoom en v.room) = false →
        Answers s (.caravanClose e) fun t => Ended t e (if en.replayed then 0x04 else 0x03) 0 0 ∧ OnlyEntry s t e) ∧
      (∀ v, s.engine.caravans = [v] → v.id = descField en.desc 16 1 → fromRoom en v.room = true →
        ((u.ledger.entries.any fun y => descOp y.desc == 0x41 && descField y.desc 16 1 == v.id && fromRoom y v.room &&
            y.st != .mirroring && y.result.isNone) = false →
          Answers s (.caravanClose e) fun t => Ended t e 0x00 0 0 ∧ t.engine = { s.engine with caravans := [] } ∧ t.pool = s.pool) ∧
        (∀ y ∈ s.ledger.entries, y.n ≠ e → descOp y.desc = 0x41 → descField y.desc 16 1 = v.id → fromRoom y v.room = true →
          y.st = .running → y.result = none → exec (.caravanClose e) s = .next (dropGot u (.work e))))) ∧
    (∀ v r g, isRunning s = true → caravanOf s v.id = some v → v.run = some r → v.stages[0]? = some g →
      (r.ended = true → exec (.sourceReaderDeliver v.id x) s = .next (settleCaravan s v.id)) ∧
      (r.ended = true → RunStands v → exec (.sourceReaderDeliver v.id x) s = .next s) ∧
      (r.ended = false → r.srcLen ≤ r.nextRec * r.recSize → exec (.sourceReaderDeliver v.id x) s =
        .next (settleCaravan (updCaravan s v.id fun v => { v with run := some { r with ended := true } }) v.id)) ∧
      (r.ended = false → r.nextRec * r.recSize < r.srcLen →
        (g.depth ≤ poolUse v 0 0 (clusterFor g (BitVec.ofNat 32 r.nextRec)) →
          exec (.sourceReaderDeliver v.id x) s = .next (settleCaravan s v.id)) ∧
        (poolUse v 0 0 (clusterFor g (BitVec.ofNat 32 r.nextRec)) < g.depth → ∀ m got, readNow s r.e (g.clusters.headD 519) v.room
            (r.src + BitVec.ofNat 64 (r.nextRec * r.recSize)) (min r.recSize (r.srcLen - r.nextRec * r.recSize)) = (m, got) →
          caravanOf m v.id = some v →
          (isLack got.status = true → exec (.sourceReaderDeliver v.id x) s = .next (settleCaravan m v.id)) ∧
          (got.status = 0x06 → exec (.sourceReaderDeliver v.id x) s = .next (settleCaravan (endRun m v.id (some 0x06)) v.id)) ∧
          (got.status = 0x00 → ∃ t w q, exec (.sourceReaderDeliver v.id x) s = .next (settleCaravan t v.id) ∧
            (RunStands v → exec (.sourceReaderDeliver v.id x) s = .next t) ∧ t.pool = m.pool ∧ caravanOf t v.id = some w ∧
            w.run = some q ∧ q.nextRec = r.nextRec + 1 ∧ q.status = r.status ∧ w.bufs.length = v.bufs.length + 1 ∧
            (q.ended = true ↔ r.srcLen ≤ r.nextRec * r.recSize + min r.recSize (r.srcLen - r.nextRec * r.recSize))))))

/-- R255, R257, R258, R261, R262, R264, R267 and R268: collectives. A context is opened on free clusters with its table, or not at all
where an agent of the table is no member of the room, and is closed when its runs are done. A run is first reserved at every switch, one at
a time in its context; a switch that cannot take its share answers with its reason, which refuses the run once all have answered.
A packet that names no open context, or comes from no member of the table, is discarded and counted. An
early contribution is held; one that is there already is counted as a duplicate; one for a chunk below the mark as late. An
acknowledged chunk frees its state. A run is complete when every root has reported its chunks; one that ends discards its state, and at
its promise ends with status 0x04.
The model's own choices in it: log entries 77, 78, 79 and 81. -/
def Obligations.CollectivesRun : Prop :=
  ∀ (s u : State) (e : Nat) (en : Entry) (x : Cells) (p : CollPkt) (c : Context) (r : Round), u = startEntry s e →
    (CanRun s e 0x48 en → ∀ lead, lead = BitVec.ofNat 16 (descField en.desc 18 2) →
      ((contextOf s lead (descField en.desc 16 2)).isSome = true → Answers s (.collOpen e x) fun t => Ended t e 0x03 0 0 ∧ OnlyEntry s t e) ∧
      (contextOf s lead (descField en.desc 16 2) = none → ∀ tab roots ms ok, tab = ownRead u en.n (descWord en.desc 32) (8 * descField en.desc 20 2) →
        roots = ownRead u en.n (descWord en.desc 40) (2 * descField en.desc 26 1) → tab.status = 0x00 → roots.status = 0x00 →
        readTable8 u (entryRoom en) (descField en.desc 22 2) (descField en.desc 20 2) tab.bytes [] = (ms, ok) →
        (ok = false → Answers s (.collOpen e x) fun t => Ended t e 0x03 0 0 ∧ OnlyEntry s t e) ∧
        (ok = true → placeStage (clustersFor u (entryRoom en) (some en.n)) (descField en.desc 52 1) false [] = none →
          Answers s (.collOpen e x) fun t => Ended t e 0x04 0 0 ∧ OnlyEntry s t e) ∧
        (∀ cs, ok = true → placeStage (clustersFor u (entryRoom en) (some en.n)) (descField en.desc 52 1) false [] = some cs →
          (descField en.desc 53 1 = 1 → isLack (ownRead u en.n (descWord en.desc 56) 8448).status = false) →
          Answers s (.collOpen e x) fun t => t.pool = s.pool ∧ t.engine = s.engine ∧ ∃ d g, t.coll = { s.coll with ctxs := s.coll.ctxs ++ [d] } ∧
            Ended t e 0x00 d.k cs.length ∧ d.lead = lead ∧ d.k ≤ descField en.desc 30 2 ∧ d.members = ms ∧ d.clusters = cs ∧ d.room = entryRoom en ∧
            d.total = descField en.desc 22 2 ∧ d.round = none ∧ t.fab = { s.fab with groups := s.fab.groups ++ [g] } ∧ g.id = d.group))) ∧
    (ledgerEntry s e = some en → waitsToReserve s en = true →
      (MirrorStands s → s.own.need = [] → contextOf s (selfId s) (descField en.desc 16 2) = none → Answers s (.collRun e) fun t =>
        Ended t e (if en.replayed then 0x04 else 0x03) 0 0 ∧ t.pool = s.pool ∧ t.coll = s.coll) ∧
      (s.coll.ctxs = [c] → c.lead = selfId s → c.ctx.toNat = descField en.desc 16 2 →
        (MirrorStands s → fromRoom en c.room = false ∨ c.closing.isSome = true → Answers s (.collRun e) fun t =>
          Ended t e 0x03 0 0 ∧ t.pool = s.pool ∧ t.coll = s.coll) ∧
        (fromRoom en c.room = true → c.closing = none → (reserving c).isSome = true → exec (.collRun e) s = .next s) ∧
        (fromRoom en c.room = true → c.closing = none → reserving c = none → c.rounds + 1 < 2 ^ 31 → roundAt c (BitVec.ofNat 32 (c.rounds + 1)) = none →
          (1 < c.nSwitches → Answers s (.collRun e) fun t => t.pool = s.pool ∧
            (∀ x ∈ otherSwitches s c, Out.event 8 (x.toNat + c.ctx.toNat * 2 ^ 16) ∈ t.out) ∧
            ∃ d q, t.coll.ctxs = [d] ∧ d.rounds = c.rounds + 1 ∧ d.round = c.round ∧ d.waiting = c.waiting ++ [q] ∧ q.e = some e ∧
              q.accepted = false ∧ q.params.round = BitVec.ofNat 32 (c.rounds + 1) ∧ q.params.count = descField en.desc 24 8) ∧
          (c.nSwitches = 1 → MirrorStands s → Answers s (.collRun e) fun t => ∃ d, t.coll.ctxs = [d] ∧ d.round = c.round ∧
            ((∃ q, d.waiting = c.waiting ++ [q] ∧ q.e = some e ∧ q.reserved = [selfId s]) ∨
              (d.waiting = c.waiting ∧ ∃ z f, ledgerEntry t e = some z ∧ z.result = some f ∧ f.status ≠ 0x00)))))) ∧
    (CanRun s e 0x4A en → ∀ lead, lead = BitVec.ofNat 16 (descField en.desc 18 2) →
      (contextOf s lead (descField en.desc 16 2) = none → Answers s (.collClose e) fun t =>
        Ended t e (if en.replayed then 0x04 else 0x03) 0 0 ∧ OnlyEntry s t e) ∧
      (s.coll.ctxs = [c] → c.lead = lead → c.ctx.toNat = descField en.desc 16 2 →
        (fromRoom en c.room = false → Answers s (.collClose e) fun t => Ended t e 0x03 0 0 ∧ OnlyEntry s t e) ∧
        (fromRoom en c.room = true → c.waiting ≠ [] ∨ (c.round.any fun y => !y.ended && decide (y.mark < runChunks c y)) = true →
          exec (.collClose e) s = .next (dropGot u (.work e))) ∧
        (fromRoom en c.room = true → c.waiting = [] → (c.round.any fun y => !y.ended && decide (y.mark < runChunks c y)) = false →
          (c.round.all fun y => y.share.isNone) = true → (u.ledger.entries.all fun y => descOp y.desc != 0x49) = true →
          Answers s (.collClose e) fun t => t.coll.ctxs = [] ∧ Ended t e 0x00 0 0 ∧ t.engine = s.engine ∧ t.pool = s.pool ∧
            t.fab = { s.fab with groups := s.fab.groups.filter fun g => g.id != c.group }))) ∧
    (∀ a : CollParams, isRunning s = true →
      ((contextOf s a.lead a.ctx.toNat = none ∨ (contextOf s a.lead a.ctx.toNat = some c ∧ c.closing.isSome = true)) →
        Answers s (.collReserve a) fun t => t = { s with out := t.out } ∧ t.out = s.out ++ [.event 9 (0x7F + a.ctx.toNat * 2 ^ 7)]) ∧
      (∀ why d, contextOf s a.lead a.ctx.toNat = some c → c.closing = none → testShare s c a (stamp s 18) = .inr (why, d) →
        Answers s (.collReserve a) fun t => t = { s with out := t.out } ∧
          t.out = s.out ++ [.event 9 (why + a.ctx.toNat * 2 ^ 7 + 0 * 2 ^ 17 + d * 2 ^ 32)]) ∧
      (∀ q, MirrorStands s → s.coll.ctxs = [c] → c.lead = a.lead → c.ctx = a.ctx → c.lead ≠ selfId s → c.closing = none → c.waiting = [] →
        roundAt c a.round = none → c.early = [] → c.earlyParts = [] → testShare s c a (stamp s 18) = .inl q →
        Answers s (.collReserve a) fun t => t.pool = s.pool ∧ Out.event 9 (0 + a.ctx.toNat * 2 ^ 7 + c.k * 2 ^ 17 + 0 * 2 ^ 32) ∈ t.out ∧
          ∃ d b y, t.coll.ctxs = [d] ∧ b.params = a ∧ b.kRun = c.k ∧ b.share = some y.n ∧ y ∈ t.ledger.entries ∧ y.share = true ∧
            y.st = .accepted ∧ y.promise = a.promise ∧
            (if (c.round.any fun x => !x.ended && x.share.isSome) = true then d.round = c.round ∧ d.waiting = [b]
             else d.round = some b ∧ d.waiting = []))) ∧
    (∀ sw reason deadline k, isRunning s = true → s.coll.ctxs = [c] → c.lead = selfId s → c.waiting = [r] → r.accepted = false →
      (c.round.all fun y => y.params.round != r.params.round) = true → sw ∉ r.reserved → sw ∉ r.refusers →
      let r' : Round := if reason = 0 then { r with reserved := r.reserved ++ [sw], kRun := min r.kRun k }
        else { r with refusers := r.refusers ++ [sw], refusal := some (r.refusal.getD reason), latest := max r.latest deadline.toNat }
      (r.reserved.length + r.refusers.length + 1 < c.nSwitches → Answers s (.collReserveReply c.ctx sw reason deadline k) fun t =>
        OnlyContext s t { c with waiting := [r'] }) ∧
      (r.reserved.length + r.refusers.length + 1 = c.nSwitches → r.e = some e →
        (r'.refusal = none → exec (.collReserveReply c.ctx sw reason deadline k) s =
          .next (mirrorEntry { s with coll := { s.coll with ctxs := [{ c with waiting := [r'] }] } } e)) ∧
        (∀ why, r'.refusal = some why → why ≠ 0x7F → r.share = none → ledgerEntry s e = some en → en.result = none →
          Answers s (.collReserveReply c.ctx sw reason deadline k) fun t => (∃ z f, ledgerEntry t e = some z ∧ z.result = some f ∧
            f.status = 0x02 ∧ f.byte5 = why.setWidth 8 ∧ f.r16 = BitVec.ofNat 64 r'.latest) ∧
            ∃ d, t.coll.ctxs = [d] ∧ d.waiting = [] ∧ d.rounds = c.rounds - 1 ∧ d.round = c.round))) ∧
    (isRunning s = true → s.fab.inbox = [] → contextOf s p.lead p.ctx.toNat = none → ∀ leaf bad i, i ∈ [Instr.collData p, .collPart p leaf,
      .collResult p, .collAck p, .collCountReport p bad, .collRunEnded p] → exec i s = .next (discarded s)) ∧
    (isRunning s = true → s.fab.inbox = [] → s.coll.ctxs = [c] → c.lead = p.lead → c.ctx = p.ctx →
      ((p.src, p.member) ∉ c.members → exec (.collData p) s = .next (discarded s)) ∧
      ((p.src, p.member) ∈ c.members → c.round = none → Answers s (.collData p) fun t => OnlyContext s t { c with early := c.early ++ [p] }) ∧
      (∀ leaf, (c.waiting.any fun y => y.params.round == p.round) = true →
        Answers s (.collPart p leaf) fun t => OnlyContext s t { c with earlyParts := c.earlyParts ++ [(p, leaf)] }) ∧
      (c.round = none → c.past = none → c.waiting = [] → ∀ leaf bad i, i ∈ [Instr.collPart p leaf, .collAck p, .collCountReport p bad, .collRunEnded p] →
        Answers s i fun t => OnlyContext s t { c with lateData := c.lateData + 1 }) ∧
      (∀ leaf y, c.waiting = [] → (c.round = some y ∨ (c.past = some y ∧ (c.round.all fun x => x.params.round != p.round) = true)) →
        y.params.round = p.round → (rootOf y p.chunk).complete = true → leaf ≠ selfId s → Answers s (.collPart p leaf) fun t =>
          ∃ q : Packet, Formed s t [q] ∧ q.opcode = 0x93 ∧ q.dst = switchAgentId s leaf ∧ t = { s with fab := { s.fab with outbox := t.fab.outbox } }) ∧
      (c.round = some r → c.waiting = [] → r.params.round = p.round → r.ended = false →
        ((p.src, p.member) ∈ c.members → roundLive s c r = true → c.early = [] → p.chunk < runChunks c r → p.first < chunkLen c r p.chunk → r.mark ≤ p.chunk →
          (leafOf r p.chunk).acked = false → (leafOf r p.chunk).sent = false →
          (bringsAgain c r (leafOf r p.chunk) p = true → Answers s (.collData p) fun t =>
            OnlyContext s t { c with duplicates := c.duplicates + 1 }) ∧
          (bringsAgain c r (leafOf r p.chunk) p = false →
            leafDone c r (addContribution c r p (leafOf r p.chunk)) = false → Answers s (.collData p) fun t =>
              OnlyContext s t (inRound c (putLeaf r (addContribution c r p (leafOf r p.chunk)))))) ∧
        ((p.src, p.member) ∈ c.members → roundLive s c r = true → c.early = [] → p.chunk < r.mark → Answers s (.collData p) fun t =>
          OnlyContext s t { c with lateData := c.lateData + 1 }) ∧
        (∀ leaf, (leaf, p.first) ∈ (rootOf r p.chunk).leaves → (rootOf r p.chunk).complete = false → Answers s (.collPart p leaf) fun t =>
          OnlyContext s t { c with duplicates := c.duplicates + 1 }) ∧
        (∀ leaf as x', r.params.op ≤ 1 → as = readPartials (ctxMode c) (p.data.length + 1) p.data [] →
          x' = { rootOf r p.chunk with
            leaves := (rootOf r p.chunk).leaves ++ [(leaf, p.first)]
            accs := mergeAt (fullAccs (chunkLen c r p.chunk) (rootOf r p.chunk).accs) p.first as
            poison := (rootOf r p.chunk).poison || p.poison || as.any fun a => a.poison } →
          (rootOf r p.chunk).pieces = [] → (leaf, p.first) ∉ (rootOf r p.chunk).leaves → (rootOf r p.chunk).complete = false →
          rootDoneNow c r x' = false → Answers s (.collPart p leaf) fun t => OnlyContext s t (inRound c (putRoot r x'))) ∧
        (r.params.op = 0 → c.members ≠ [] → Answers s (.collResult p) fun t => ∃ q : Packet, Formed s t [q] ∧ q.opcode = 0x92 ∧
          q.mcast = true ∧ q.dst = BitVec.ofNat 18 c.group ∧ q.data = p.data ∧ q.poison = p.poison ∧
          t = { s with fab := { s.fab with outbox := t.fab.outbox } }) ∧
        (r.share = none → p.chunk ≠ r.mark → r.markTold = r.mark → r.mark ≤ p.chunk → p.chunk < runChunks c r → (leafOf r r.mark).acked = false →
          Answers s (.collAck p) fun t =>
            OnlyContext s t (inRound c (putLeaf r { leafOf r p.chunk with acked := true, accs := [], pieces := [] }))) ∧
        (r.share = none → p.chunk = r.mark → r.mark + 1 < runChunks c r → r.markTold ≤ r.mark → 4 * (r.mark + 1 - r.markTold) < windowOf s c r →
          (leafOf r (r.mark + 1)).acked = false → Answers s (.collAck p) fun t =>
            OnlyContext s t (inRound c { r with leaf := r.leaf.filter fun y => y.k != r.mark, mark := r.mark + 1 })) ∧
        (∀ bad, c.lead = selfId s →
          (r.accepted = false → Answers s (.collCountReport p bad) fun t =>
            OnlyContext s t (inRound c { r with reports := r.reports.filter (fun y => y.1 != p.src) ++ [(p.src, p.chunk, bad)] })) ∧
          (∀ x, r.accepted = true → r.e = some e → r.share = none → r.reports = [] → ledgerEntry s e = some en → en.result = none →
            c.roots = [x] → p.src = switchAgentId s x → ownChunks c r x ≤ p.chunk → Answers s (.collCountReport p bad) fun t =>
              Ended t e (if bad = 0 then 0x00 else 0x01) p.chunk bad ∧ ∃ d q, t.coll.ctxs = [d] ∧ d.round = some q ∧ q.ended = true)) ∧
        (r.share = none → Answers s (.collRunEnded p) fun t => t = { s with coll := t.coll } ∧ ∃ d q, t.coll.ctxs = [d] ∧ d.round = some q ∧
          q.ended = true ∧ q.leaf = []))) ∧
    (isRunning s = true → s.coll.ctxs = [c] → c.lead = selfId s → c.round = some r → c.waiting = [] → r.accepted = true → r.ended = false →
      (s.time.now < r.params.promise → exec (.collPromiseTime c.ctx) s = .next s) ∧
      (r.params.promise ≤ s.time.now → r.e = some e → r.share = none → ledgerEntry s e = some en → en.result = none →
        Answers s (.collPromiseTime c.ctx) fun t => t.pool = s.pool ∧ Ended t e 0x04 (reported r).1 (reported r).2 ∧
          ∃ d q, t.coll.ctxs = [d] ∧ d.round = some q ∧ q.ended = true))

/-- R197, R280, R287 to R291: the work of ATTEND, ATTN_MERGE, GATHER and EMB_BAG goes in chunks: one sequence, or what one tile of the
destination holds. The record of a sequence, the elements of a GATHER and the reduced bags of an EMB_BAG are written at their
place, by the switch's own writes, and the descriptor's words count them after the last chunk; an index outside its limit gathers ones and is
counted; the result of an empty bag is zeros.
The model's own choices in it: log entries 11, 12, 13, 85, 86 and 87. -/
def Obligations.AttentionAndGathersWriteTheirResults : Prop :=
  ∀ (s u : State) (e : Nat) (en : Entry) (x : Cells) (w : State) (st : Stat), u = startEntry s e → Stands w e →
    (let d := en.desc
     (CanRun s e 0x60 en → ∀ i v o flags, i = nextItem en → attendSeq u en i = (v, o) → o.stop = 0x00 → tallyStatus en = 0x00 → st = 0x00 →
       ownWrite v en.n (entryRoom en) (descWord d 24 + BitVec.ofNat 64 (i * partialBytes d)) o.record = (w, st) →
       flags = en.tally.drop 4 ++ [o.flags] → Answers s (.attend e x) fun t => Keeps t w ∧
         (if descField d 32 2 ≤ i + 1 then Ended t e (BitVec.ofNat 8 (flagCounts flags).2) (tallyAt en 1 + 1) (flagCounts flags).1
          else GoesOn t e (i + 1) (i + 1))) ∧
     (CanRun s e 0x61 en → ∀ i l o flags, i = nextItem en → l = ownRead u en.n (descWord d 16) (8 * descField d 34 1) →
       o = mergeSeq u en ((List.range (descField d 34 1)).map fun i => BitVec.ofNat 64 (leAt l.bytes (8 * i) 8)) l.status i →
       o.stop = 0x00 → tallyStatus en = 0x00 → st = 0x00 →
       ownWrite u en.n (entryRoom en) (descWord d 24 + BitVec.ofNat 64 (i * mergeOutBytes d)) o.record = (w, st) →
       flags = en.tally.drop 4 ++ [o.flags] → Answers s (.attnMerge e x) fun t => Keeps t w ∧
         (if descField d 32 2 ≤ i + 1 then Ended t e (BitVec.ofNat 8 (flagCounts flags).2) (tallyAt en 1 + 1) (flagCounts flags).1
          else GoesOn t e (i + 1) (i + 1))) ∧
     (CanRun s e 0x62 en → ∀ sz i k r, sz = descField d 44 2 → i = nextItem en / max 1 sz →
       k = min (descField d 40 4 - i) (max 1 (65536 / max 1 sz)) → ((List.range k).map fun j => i + j).foldl (gatherOne en)
         (u, { status := tallyStatus en, written := tallyAt en 0, outside := tallyAt en 1, bad := tallyAt en 2 }) = (w, r) → r.status ≤ 5 →
       Answers s (.gather e x) fun t => Keeps t w ∧
         (if descField d 40 4 ≤ i + k then Ended t e (BitVec.ofNat 8 r.status) r.written (r.outside * 2 ^ 32 + r.bad)
          else GoesOn t e ((i + k) * sz) ((i + k) * sz))) ∧
     (∀ v r i idx sz, r.status = 0x00 → sz = descField d 44 2 → gatherIndex v en i = (idx, 0x00) → st = 0x00 →
       (descField d 46 1 ≠ 2 → descField d 48 8 ≠ 0 → descField d 48 8 ≤ idx →
         ownWrite v en.n (entryRoom en) (descWord d 24 + BitVec.ofNat 64 (i * sz)) (List.replicate sz 0xFF) = (w, st) →
         gatherOne en (v, r) i = (w, { r with written := r.written + sz, outside := r.outside + 1 })) ∧
       (∀ got, descField d 46 1 = 2 ∨ descField d 48 8 = 0 ∨ idx < descField d 48 8 → got = ownRead v en.n
           (offsetIn (descWord d 16) (idx * (if descField d 46 1 = 2 then descField d 32 8 else sz))) sz → got.status = 0x00 →
         ownWrite v en.n (entryRoom en) (descWord d 24 + BitVec.ofNat 64 (i * sz)) got.bytes = (w, st) →
         gatherOne en (v, r) i = (w, { r with written := r.written + sz }))) ∧
     (CanRun s e 0x63 en → ∀ row i k lo r, row = max 1 (descField d 52 2 * (tyWidth (descField d 56 1) / 8)) → i = nextItem en / row →
       k = min (descField d 48 4 - i) (max 1 (65536 / row)) →
       (if en.tally = [] then listValue u en (descWord d 40) i = (lo, 0x00) else lo = tallyAt en 3) →
       ((List.range k).map fun j => i + j).foldl (bagOne en)
         (u, { status := if en.tally = [] then 0x00 else tallyStatus en, rows := tallyAt en 0, bad := tallyAt en 1, clamps := tallyAt en 2, off := lo }) = (w, r) →
       r.status ≤ 5 → Answers s (.embBag e x) fun t => Keeps t w ∧
         (if descField d 48 4 ≤ i + k then Ended t e (BitVec.ofNat 8 r.status) r.rows r.bad
          else GoesOn t e ((i + k) * row) ((i + k) * row))) ∧
     (∀ v r b hi n ow place, r.status = 0x00 → n = descField d 52 2 → ow = tyWidth (descField d 56 1) / 8 →
       place = descWord d 24 + BitVec.ofNat 64 (b * n * ow) → listValue v en (descWord d 40) (b + 1) = (hi, 0x00) → st = 0x00 →
       (hi ≤ r.off → ownWrite v en.n (entryRoom en) place ((List.range n).flatMap fun _ => leBytes ow 0) = (w, st) →
         bagOne en (v, r) b = (w, { r with clamps := r.clamps + (if hi < r.off then 1 else 0) })) ∧
       (∀ idx got iw, hi = r.off + 1 → iw = tyWidth (descField d 54 1) / 8 → listValue v en (descWord d 32) r.off = (idx, 0x00) →
         got = ownRead v en.n (offsetIn (descWord d 16) (idx * n * iw)) (n * iw) → got.status = 0x00 →
         ownWrite v en.n (entryRoom en) place ((List.range n).flatMap fun k => leBytes ow (bagElement (descField d 55 1 % 16)
           (descField d 54 1) (descField d 56 1) [leAt got.bytes (k * iw) iw])) = (w, st) →
         bagOne en (v, r) b = (w, { r with rows := r.rows + 1, off := hi }))))

/-- R294, R295, R297 to R299, R302, R306, R308 and R311: the filter units. A booking waits for the work of its room and then replaces the
booking; an update record is applied or skipped, and counted; a lookup gives the first match and rewrites a row that gave a false
hit; the scrubber rewrites a row that differs from its copy; an image that fails a check is not loaded, with the place in the record, and one
of which no replica fits is refused by its test; an automaton is unloaded when its scans are done; a scan writes its matches in order, a
section at a time.
The model's own choices in it: log entries 13, 74, 88, 90, 91 and 147. -/
def Obligations.FilterUnitsWork : Prop :=
  ∀ (s u : State) (e : Nat) (en : Entry) (x : Cells) (w : State), u = startEntry s e →
    (let d := en.desc
     let filtOnly (t : State) : Prop := t.maps = s.maps ∧ t.pool = s.pool ∧ t.engine = s.engine ∧ t.rooms = s.rooms
     (CanRun s e 0x70 en → (entryRoom en ≠ 0 → Answers s (.filterBook e) fun t => Ended t e 0x03 0 0 ∧ OnlyEntry s t e) ∧
       (entryRoom en = 0 → exec (.filterBook e) s = .next (dropGot u (.work e)))) ∧
     (∀ room, s.filt.booking = [(room, e)] → ledgerEntry s e = some en → en.started = true → en.result = none → isRunning s = true →
       (filterWorkLeft s room false ≠ [] → exec (.filterBookEffect room) s = .next s) ∧
       (filterWorkLeft s room false = [] → (∀ k < 8, clampTable s room k (descField d (20 + 2 * k) 2) = descField d (20 + 2 * k) 2) →
         clampGroups s room (descField d 36 4) = descField d 36 4 →
         ((filterWorkLeft s room true).all (fun y => !y.started) = true → Answers s (.filterBookEffect room) fun t => filtOnly t ∧
           t.filt = (applyBooking s room d).filt ∧ t.filt.booking = [] ∧ Ended t e 0x00 0 en.clamps) ∧
         (∀ y, filterWorkLeft s room true = [y] → y.started = true → y.n ≠ e → ledgerEntry s y.n = some y →
           Answers s (.filterBookEffect room) fun t => filtOnly t ∧ t.filt = (applyBooking s room d).filt ∧
             Ended t y.n 0x06 y.position.toNat 0 ∧ Ended t e 0x00 0 en.clamps))) ∧
     (CanRun s e 0x71 en →
       (isRetired s 0x07 (descField d 28 1) = true ∨ (en.replayed = true ∧ tableOf s (entryRoom en) (descField d 28 1) = none) →
         Answers s (.arrayWrite e x) fun t => Ended t e 0x04 0 0 ∧ OnlyEntry s t e) ∧
       (isRetired s 0x07 (descField d 28 1) = false → (en.replayed = true → (tableOf s (entryRoom en) (descField d 28 1)).isSome = true) →
         ∀ i k r, i = nextItem en → k = min (descField d 24 4 - i) 682 → Stands w e → ((List.range k).map fun j => i + j).foldl (writeRecordAt en)
           ((if descField d 29 1 % 2 = 1 ∧ i = 0 then updTable u (entryRoom en) (descField d 28 1) fun t => { t with entries := [] } else u),
            { status := tallyStatus en, done := tallyAt en 0, other := tallyAt en 1, clamps := tallyAt en 2 }) = (w, r) → r.status ≤ 5 →
           Answers s (.arrayWrite e x) fun t => filtOnly t ∧ t.filt = w.filt ∧
             (if descField d 24 4 ≤ i + k then Ended t e (BitVec.ofNat 8 r.status) r.done (r.other * 2 ^ 32 + r.clamps)
              else GoesOn t e (i + k) (i + k)))) ∧
     (∀ v r i got t0 q, r.status = 0x00 → got = ownRead v en.n (descWord d 16 + BitVec.ofNat 64 (96 * i)) 96 → got.status = 0x00 →
       tableOf v (entryRoom en) (descField d 28 1) = some t0 → q = readUpdate t0.ternary got.bytes → q.clamps = 0 →
       (∀ t1, applyUpdate t0 q = some t1 →
         writeRecordAt en (v, r) i = (updTable v (entryRoom en) (descField d 28 1) (fun _ => t1), { r with done := r.done + 1 })) ∧
       (applyUpdate t0 q = none → writeRecordAt en (v, r) i = (v, { r with other := r.other + 1 }))) ∧
     (CanRun s e 0x72 en →
       (isRetired s 0x07 (descField d 36 1) = true ∨ (en.replayed = true ∧ tableOf s (entryRoom en) (descField d 36 1) = none) →
         Answers s (.arrayLookup e x) fun t => Ended t e 0x04 0 0 ∧ OnlyEntry s t e) ∧
       (isRetired s 0x07 (descField d 36 1) = false → (en.replayed = true → (tableOf s (entryRoom en) (descField d 36 1)).isSome = true) →
         ∀ i k r, i = nextItem en → k = min (descField d 32 4 - i) 2048 → Stands w e → ((List.range k).map fun j => i + j).foldl (lookupAt en)
           (u, { status := tallyStatus en, done := tallyAt en 0, other := tallyAt en 1 }) = (w, r) → r.status ≤ 5 →
           Answers s (.arrayLookup e x) fun t => Keeps t w ∧
             (if descField d 32 4 ≤ i + k then Ended t e (BitVec.ofNat 8 r.status) r.done r.other else GoesOn t e (i + k) (i + k)))) ∧
     (∀ v r i got v1 b hit bad st, r.status = 0x00 → got = ownRead v en.n (descWord d 16 + BitVec.ofNat 64 (32 * i)) 32 → got.status = 0x00 →
       arrayLookup v (entryRoom en) (descField d 36 1) (BitVec.ofNat 256 (leVal got.bytes)) = (v1, b, hit, bad) →
       ownWrite v1 en.n (entryRoom en) (descWord d 24 + BitVec.ofNat 64 (16 * i)) b = (w, st) → st = 0x00 →
       lookupAt en (v, r) i = (w, { r with done := r.done + (if hit then 1 else 0), other := r.other + bad })) ∧
     (∀ array p, exec (.arrayScrubStep array p) s = exec (.arrayScrubStep array { slot := p.slot }) (p.errors.foldl (strikeEntry array) s)) ∧
     (∀ array slot t0 a, s.filt.tables = [t0] → t0.array = array → t0.entries = [a] → t0.first * 65536 ≤ slot → slot < (t0.first + t0.count) * 65536 →
       t0.first * 65536 + a.slot ≤ slot → slot < t0.first * 65536 + a.slot + entrySlots t0 →
       (a.eccBad = true → Answers s (.arrayScrubStep array { slot := slot }) fun t => filtOnly t ∧ t.filt.tables = [{ t0 with entries := [] }]) ∧
       (a.eccBad = false → a.row = a.copy → exec (.arrayScrubStep array { slot := slot }) s = .next s ∧
         ∀ y : RowError, y.slot = slot → y.ecc = false → (y.key ≠ 0 ∨ y.mask ≠ 0) → Answers s (.arrayScrubStep array { slot := slot, errors := [y] }) fun t =>
           t = { s with filt := { s.filt with rewrites := bumpCount array 1 s.filt.rewrites } }) ∧
       (a.eccBad = false → a.row ≠ a.copy → exec (.arrayScrubStep array { slot := slot }) s = .next { s with filt := { s.filt with
         tables := [{ t0 with entries := [{ a with row := a.copy }] }], rewrites := bumpCount array 1 s.filt.rewrites } })) ∧
     (ledgerEntry s e = some en → untested s en 0x73 = true → s.own.need = [] → MirrorStands s → refusedBefore s en = false →
       ∀ got p r gang, got = ownRead s en.n (descWord d 16) (descField d 24 4) → got.status = 0x00 → firstBad got.bytes (descField d 24 4) = none →
         autoEngines s en got.bytes = (p, r, gang) →
         (r = 0 → Answers s (.autoLoad e x) fun t => t.pool = s.pool ∧ t.filt = s.filt ∧ ∃ z f, ledgerEntry t e = some z ∧ z.result = some f ∧
           f.status = 0x02 ∧ f.byte5 = 0x06) ∧
         (r ≠ 0 → r = descField d 29 1 → Answers s (.autoLoad e x) fun t => filtOnly t ∧ t.filt = s.filt ∧
           ∃ z, ledgerEntry t e = some z ∧ z.tested = true ∧ z.result = none ∧ z.claims = gang)) ∧
     (CanRun s e 0x73 en →
       ((s.filt.automata.any fun a => a.id == descField d 28 1) = true → Answers s (.autoLoad e x) fun t => Ended t e 0x03 0 0 ∧ OnlyEntry s t e) ∧
       ((s.filt.automata.any fun a => a.id == descField d 28 1) = false → ∀ got, got = ownRead u en.n (descWord d 16) (descField d 24 4) →
         (got.status ≠ 0x00 → got.status ≠ 0x01 → isLack got.status = false → Answers s (.autoLoad e x) fun t =>
           Ended t e (BitVec.ofNat 8 got.status) 0 0 ∧ OnlyEntry s t e) ∧
         (got.status ≤ 1 → ∀ k, firstBad got.bytes (descField d 24 4) = some k → Answers s (.autoLoad e x) fun t =>
           Ended t e 0x03 0 (k.part * 2 ^ 56 + k.off) ∧ OnlyEntry s t e) ∧
         (got.status ≤ 1 → ∀ p r gang, firstBad got.bytes (descField d 24 4) = none → autoEngines u en got.bytes = (p, r, gang) →
           (r = 0 → Answers s (.autoLoad e x) fun t => Ended t e 0x04 0 0 ∧ OnlyEntry s t e) ∧
           (r ≠ 0 → Answers s (.autoLoad e x) fun t => filtOnly t ∧ Ended t e 0x00 (r * p) 0 ∧ t.filt = { s.filt with automata := s.filt.automata ++
             [{ id := descField d 28 1, room := entryRoom en, span := leAt got.bytes 8 4, parts := (List.range p).map (loadPart got.bytes),
                replicas := r, engines := gang }] })))) ∧
     (CanRun s e 0x74 en →
       ((s.filt.automata.any fun a => a.id == descField d 16 1 && a.room == entryRoom en) = false → Answers s (.autoUnload e) fun t =>
         Ended t e (if en.replayed then 0x04 else 0x03) 0 0 ∧ OnlyEntry s t e) ∧
       ((s.filt.automata.any fun a => a.id == descField d 16 1 && a.room == entryRoom en) = true →
         (scansOf u (entryRoom en) (descField d 16 1) = [] → Answers s (.autoUnload e) fun t => filtOnly t ∧ Ended t e 0x00 0 0 ∧
           t.filt = { s.filt with automata := s.filt.automata.filter fun a => a.id != descField d 16 1 }) ∧
         (scansOf u (entryRoom en) (descField d 16 1) ≠ [] → exec (.autoUnload e) s = .next (dropGot u (.work e))))) ∧
     (CanRun s e 0x75 en →
       ((s.filt.automata.any fun a => a.id == descField d 28 1 && a.room == entryRoom en) = false → Answers s (.autoScan e x) fun t =>
         Ended t e (if en.replayed then 0x04 else 0x03) 0 0 ∧ OnlyEntry s t e) ∧
       (∀ a, s.filt.automata = [a] → a.id = descField d 28 1 → a.room = entryRoom en →
         (hasReplica s a = false → Answers s (.autoScan e x) fun t => Ended t e 0x04 en.position.toNat 0 ∧ OnlyEntry s t e) ∧
         (hasReplica s a = true → Stands w e → ∀ r recs st cap, scanSection u en a (scanNext u en (scanSoFar en)) = (r, recs) → r.status ≤ 5 →
           cap = descField d 48 8 / 16 → ownWrite (recordClamps u en r.clamps) en.n (entryRoom en)
             (descWord d 40 + BitVec.ofNat 64 (16 * (scanSoFar en).found))
             ((recs.take (cap - (scanSoFar en).found)).flatMap fun m => matchBytes m.at_ m.pattern m.flags m.prio) = (w, st) → st = 0x00 →
           Answers s (.autoScan e x) fun t => Keeps t w ∧
             (if descField d 24 4 ≤ r.i then Ended t e (BitVec.ofNat 8 r.status) (min r.found cap)
                (min (2 ^ 32 - 1) (r.found - cap) * 2 ^ 32 + min 65535 r.markers * 65536 + min 65535 r.skipped)
              else GoesOn t e r.i 0)))))
/-- R382 to R384, R386, R389 and R392: the statement of a binding key is written where the descriptor names it; a sealed package that
is no package, or whose slot is open, opens nothing (status 0x03), one that passes every check opens its slot with the unwrapped
key, and its tiles are placed one at a time; closing forgets the key. An image is activated only if every check passes, and changes the
measurements and the flash then.
The model's own choices in it: log entries 18, 124 and 125. -/
def Obligations.PackagesAndImagesAreChecked : Prop :=
  ∀ (s u : State) (e : Nat) (en : Entry) (x : Cells) (w : State), u = startEntry s e → MirrorStands s →
    (let d := en.desc
     let ends (i : Instr) (st : BitVec 8) : Prop := ∃ v, exec i s = .next (settleAll (pump v)) ∧ Ended v e st 0 0 ∧ OnlyEntry s v e
     (CanRun s e 0x80 en →
       (entryRoom en ≠ 0 → Answers s (.bindKeygen e x) fun t => Ended t e 0x03 0 0 ∧ OnlyEntry s t e) ∧
       (entryRoom en = 0 → en.mgmt = true → Answers s (.bindKeygen e x) fun t => Ended t e 0x00 4941 0 ∧
         t = { s with ledger := t.ledger, out := t.out, own := t.own } ∧
         t.out = s.out ++ [.hostWrite en.fn (descWord d 24) (bindingStatement s (descField d 16 4) (descField d 20 4))]) ∧
       (entryRoom en = 0 → en.mgmt = false → Stands w e →
         ownWrite u en.n 0 (descWord d 24) (bindingStatement s (descField d 16 4) (descField d 20 4)) = (w, 0x00) →
         Answers s (.bindKeygen e x) fun t => Ended t e 0x00 4941 0 ∧ Keeps t w)) ∧
     (CanRun s e 0x81 en → en.tally = [] → ∀ head, head = listRead u en x (descWord d 16) 256 →
       ((s.keys.pkgs.any fun p => p.slot == descField d 36 1) = true → ends (.pkgOpen e x) 0x03) ∧
       ((s.keys.pkgs.any fun p => p.slot == descField d 36 1) = false →
         (head.status ≠ 0x00 → isLack head.status = false → ends (.pkgOpen e x) (BitVec.ofNat 8 head.status)) ∧
         (head.status = 0x00 → pkgHead head.bytes = none → ends (.pkgOpen e x) 0x03) ∧
         (∀ h body want, head.status = 0x00 → pkgHead head.bytes = some h →
           body = listRead u en x (descWord d 16) (2304 + 1664 * h.m + 3309) → body.status = 0x00 →
           want = listRead u en x (descWord d 40) 48 → (descWord d 40 = 0 ∨ want.status = 0x00) →
           (unwrapKey s h body.bytes = none ∨ ownerSigned h body.bytes = false ∨
             (descWord d 40 ≠ 0 ∧ want.bytes ≠ hashBytes (Config.sha3 (slice body.bytes 256 1952))) ∨
             (pkgExtents h (descWord d 24)).all (pkgSuits s (entryRoom en)) = false → ends (.pkgOpen e x) 0x03) ∧
           (∀ kc, unwrapKey s h body.bytes = some kc → ownerSigned h body.bytes = true →
             (descWord d 40 = 0 ∨ want.bytes = hashBytes (Config.sha3 (slice body.bytes 256 1952))) →
             (pkgExtents h (descWord d 24)).all (pkgSuits s (entryRoom en)) = true →
             ∃ v, exec (.pkgOpen e x) s = .next (settleAll (pump v)) ∧ v.pool = s.pool ∧
               v.keys.pkgs = s.keys.pkgs ++ [{ slot := descField d 36 1, key := kc, pkgId := h.pkgId }] ∧
               (if descField d 37 1 % 2 = 1 ∨ h.tiles = 0 then Ended v e 0x00 0 0 ∧
                  ∀ k ∈ pkgExtents h (descWord d 24), ∃ y, extentOf v k = some y ∧ y.slot = some (descField d 36 1)
                else v.maps = s.maps ∧ GoesOn v e 0 0))))) ∧
     (CanRun s e 0x81 en → en.tally ≠ [] → ∀ p i got bad, i = nextItem en →
       s.keys.pkgs.find? (fun p => p.slot == descField d 36 1) = some p →
       got = listRead u en x (descWord d 16 + BitVec.ofNat 64 (5632 + 1664 * tallyAt en 1 + 65920 * i)) 65920 → isLack got.status = false →
       meetsDrain u en.n (tileGfa (tileKey (descWord d 24) + i)) = false → Stands w e →
       placeTile u (descWord d 24) p.key p.pkgId (tallyAt en 0) i got = (w, bad) →
       ∃ v, exec (.pkgOpen e x) s = .next (settleAll (pump v)) ∧ v.pool = w.pool ∧
         (if tallyAt en 2 ≤ i + 1 then Ended v e 0x00 (tallyAt en 2) bad else GoesOn v e (i + 1) 0)) ∧
     (CanRun s e 0x82 en →
       (entryRoom en ≠ 0 → (s.maps.exts.any fun y => y.slot == some (descField d 16 1) && y.room != entryRoom en) = true →
         ends (.pkgClose e) 0x03) ∧
       (entryRoom en = 0 ∨ (s.maps.exts.any fun y => y.slot == some (descField d 16 1) && y.room != entryRoom en) = false →
         ((s.keys.pkgs.any fun p => p.slot == descField d 16 1) = false → ends (.pkgClose e) (if en.replayed then 0x04 else 0x03)) ∧
         ((s.keys.pkgs.any fun p => p.slot == descField d 16 1) = true → ∃ v, exec (.pkgClose e) s = .next (settleAll (pump v)) ∧
           Ended v e 0x00 0 0 ∧ v.pool = s.pool ∧ v.keys = { s.keys with pkgs := s.keys.pkgs.filter fun p => p.slot != descField d 16 1 }))) ∧
     (CanRun s e 0x83 en →
       (entryRoom en ≠ 0 ∨ (descField d 28 1 = 0 ∧ fwBusy u en.n = true) → Answers s (.fwUpdateActivate e x) fun t =>
         Ended t e 0x03 0 0 ∧ OnlyEntry s t e) ∧
       (entryRoom en = 0 → descField d 28 1 = 0 → fwBusy u en.n = false → en.replayed = false →
         ∀ l, l = listRead u en x (descWord d 16) (descField d 24 4) → l.status = 0x00 →
         (imageCheck s.fuses l.bytes ≠ 0 → Answers s (.fwUpdateActivate e x) fun t => OnlyEntry s t e ∧
           Ended t e 0x03 0 (imageCheck s.fuses l.bytes)) ∧
         (imageCheck s.fuses l.bytes = 0 → Answers s (.fwUpdateActivate e x) fun t => t.pool = s.pool ∧ t.maps = s.maps ∧
           t.fuses = fuseRevoked s.fuses l.bytes ∧ t.boot.measure.m2 = Config.sha3 l.bytes ∧ t.boot.measure.svn = leAt l.bytes 6 1 ∧
           Ended t e 0x00 (leAt l.bytes 6 1) ((Config.sha3 l.bytes).toNat % 2 ^ 64) ∧
           (s.boot.source = 0 → t.boot.flash0 = s.boot.flash0 ∧ t.boot.flash1.map (·.image) = some l.bytes) ∧
           (s.boot.source ≠ 0 → t.boot.flash1 = s.boot.flash1 ∧ t.boot.flash0.map (·.image) = some l.bytes)))))

/-- R182, R361 and R364 to R368, Table 15-7 and Table 15-8: retiring a unit lists it, records it and leaves Healthy for Degraded; a unit
that is retired already is not retired again; a retiring switch is done when its other work is; health commands come from room 0x00 only.
FAULT_READ copies the records asked for, oldest first; a scrub reads the stored units tile by tile, poisons the lines found uncorrectable
and counts what it found; the daily one reads tier 0.
The model's own choices in it: log entries 65, 92, 93 and 99. -/
def Obligations.HealthCommandsTakeEffect : Prop :=
  ∀ (s u : State) (e : Nat) (en : Entry) (x : Cells) (w : State), u = startEntry s e → let d := en.desc
    (∀ code i cause, isRunning s = true → unitCount code ≠ 0 →
      (isRetired s code i = true ∨ unitCount code ≤ i → exec (.unitRetire code i cause) s = .next (settleAll s)) ∧
      (exec (.unitRetire code i cause) s = .next (settleAll (retireUnit s code i cause))) ∧
      (isRetired s code i = false → i < unitCount code → code ∈ [0x07, 0x08, 0x0A, 0x0B] → ∃ v, exec (.unitRetire code i cause) s = .next (settleAll v) ∧
        v.hlth.retired = s.hlth.retired ++ [(code, i)] ∧ v.boot.retireRec = s.boot.retireRec ++ [(code, i)] ∧ v.pool = s.pool ∧ v.maps = s.maps ∧
        v.engine = s.engine ∧ (s.hlth.state = .healthy → v.hlth.state = .degraded) ∧ (s.hlth.state ≠ .healthy → v.hlth.state = s.hlth.state) ∧
        (∀ t ∈ v.filt.tables, code = 0x07 → t.array ≠ i))) ∧
    (∀ i cause, isRunning s = true → s.hlth.state ≠ .failed → Answers s (.unitRetire 0x00 i cause) fun t => t.hlth.state = .failed ∧ t.hlth.replace = true ∧
      t.boot.power = .failed ∧ t.pool = s.pool) ∧
    (CanRun s e 0x90 en → entryRoom en ≠ 0 → (∃ v, exec (.healthRetireUnit e) s = .next (settleAll v) ∧ Ended v e 0x03 0 0 ∧ OnlyEntry s v e) ∧
      (Answers s (.healthEnterRetiring e) fun t => Ended t e 0x03 0 0 ∧ OnlyEntry s t e) ∧
      ∀ m, Answers s (.healthTakeOver e m) fun t => Ended t e 0x03 0 0 ∧ OnlyEntry s t e) ∧
    (CanRun s e 0x90 en → entryRoom en = 0 → descField d 16 1 = 0 → unitCount (descField d 17 1) ≠ 0 →
      (isRetired s (descField d 17 1) (descField d 18 2) = true → ∃ v, exec (.healthRetireUnit e) s = .next (settleAll v) ∧ Ended v e 0x00 0 0 ∧ OnlyEntry s v e) ∧
      (descField d 17 1 = 0x0B → isRetired s 0x0B (descField d 18 2) = false → descField d 18 2 < 196 → ∃ v, exec (.healthRetireUnit e) s = .next (settleAll v) ∧
        Ended v e 0x00 1 0 ∧ v.hlth.retired = s.hlth.retired ++ [(0x0B, descField d 18 2)])) ∧
    (CanRun s e 0x90 en → entryRoom en = 0 → descField d 16 1 = 1 → s.hlth.state ≠ .failed → Answers s (.healthEnterRetiring e) fun t =>
      t.hlth.state = .retiring ∧ t.pool = s.pool ∧ t.maps = s.maps ∧
      ((u.ledger.entries.any fun y => y.n != en.n && !y.recorded) = false → Ended t e 0x00 1 0) ∧
      ((u.ledger.entries.any fun y => y.n != en.n && !y.recorded) = true → ∃ y, ledgerEntry t e = some y ∧ y.result = none)) ∧
    (∀ m, CanRun s e 0x90 en → entryRoom en = 0 → descField d 16 1 = 2 →
      (twinPresent s = false → Answers s (.healthTakeOver e m) fun t => Ended t e 0x00 0 0 ∧ OnlyEntry s t e) ∧
      (twinPresent s = true → twinId s ∉ s.twin.adopted → beatStale (seeBeat s) = true → witnessPresent s = false → headerLive (seeBeat s) = false →
        (∀ y ∈ movers s, y.mig ≠ .disputed) → (takeOver (seeBeat u) m).own.need = [] → ∃ v,
          exec (.healthTakeOver e m) s = .next (dropGot (finishDone (settleAll (pump v)) e 1 0) (.work e)) ∧
          twinId s ∈ v.twin.adopted ∧ v.twin.claimed ≠ none ∧ ∀ r ∈ v.rooms.rooms, r.holder ≠ twinId s ∨ twinId s = selfId s)) ∧
    (CanRun s e 0x91 en → (entryRoom en ≠ 0 → Answers s (.faultRead e x) fun t => Ended t e 0x03 0 0 ∧ OnlyEntry s t e) ∧
      (entryRoom en = 0 → ∀ recs, recs = (s.hlth.log.drop (firstHeld s (BitVec.ofNat 32 (descField d 16 8)))).take (descField d 24 4) →
        ∀ r l, s.hlth.log = r :: l →
        (seqBefore (BitVec.ofNat 32 (descField d 16 8)) r.serial = true ∨ BitVec.ofNat 32 (descField d 16 8) = r.serial →
          recs = (r :: l).take (descField d 24 4)) ∧
        (en.mgmt = true → Answers s (.faultRead e x) fun t => Ended t e 0x00 recs.length r.serial.toNat ∧ t.hlth = s.hlth ∧ t.pool = s.pool ∧
          t.out = s.out ++ recs.zipIdx.map fun y => .hostWrite en.fn (descWord d 32 + BitVec.ofNat 64 (64 * y.2)) (leBytes 64 (faultBits s y.1))) ∧
        (∀ c, en.mgmt = false → recs.zipIdx.foldl (copyRecord en) (u, {}) = (w, c) → Stands w e → c.status ≤ 5 →
          Answers s (.faultRead e x) fun t => Ended t e (BitVec.ofNat 8 c.status) c.done r.serial.toNat ∧ Keeps t w))) ∧
    (CanRun s e 0x92 en → ∀ (l₁ l₂ : List Upset) keys, keys = (List.range (descField d 24 4)).map (fun i => extKey (descWord d 16) + i) →
      (isHome s (homeOf (descWord d 16)) = false ∨ (entryRoom en ≠ 0 ∧ ∀ k ∈ keys, ∀ y, extentOf s k = some y → y.room ≠ entryRoom en) →
        Answers s (.scrub e l₁ l₂) fun t => Ended t e 0x03 0 0 ∧ OnlyEntry s t e) ∧
      (isHome s (homeOf (descWord d 16)) = true → (entryRoom en = 0 ∨ ∃ k ∈ keys, ∃ y, extentOf s k = some y ∧ y.room = entryRoom en) →
        tallyStatus en = 0x00 → ∀ v at_ key, v = (l₁ ++ l₂).foldl addUpset u → at_ = nextItem en → key = extKey (descWord d 16) + at_ / 2 ^ 21 →
        (extentOf s key = none → s.ledger.target ≠ 1 → Answers s (.scrub e l₁ l₂) fun t => t.pool = v.pool ∧ t.maps = s.maps ∧
          (if descField d 24 4 ≤ at_ / 2 ^ 21 + 1 then Ended t e 0x00 (tallyAt en 0) (tallyAt en 1)
           else GoesOn t e ((at_ / 2 ^ 21 + 1) * 2 ^ 21) ((at_ / 2 ^ 21 + 1) * 2 ^ 21))) ∧
        (∀ y, extentOf s key = some y → (entryRoom en = 0 ∨ y.room = entryRoom en) →
          (y.st = .draining → s.ledger.target ≠ 1 → Answers s (.scrub e l₁ l₂) fun t => t.pool = v.pool ∧ t.maps = s.maps ∧ Ended t e 0x06 at_ 0) ∧
          (∀ c p, y.st ≠ .draining → checkUnits v (upsetUnits v fun z => z.tile == extKey (descWord d 16) * 32 + at_ / 65536) = (w, c, p) →
            Stands w e → Answers s (.scrub e l₁ l₂) fun t => t.pool = w.pool ∧ t.maps = w.maps ∧
              (if descField d 24 4 * 2 ^ 21 ≤ at_ + 65536 then Ended t e 0x00 (tallyAt en 0 + c) (tallyAt en 1 + p)
               else GoesOn t e (at_ + 65536) (at_ + 65536)))))) ∧
    (∀ (l₁ l₂ : List Upset) v, isRunning s = true → v = (l₁ ++ l₂).foldl addUpset s →
      exec (.tier0DailyScrub l₁ l₂) s = .next (checkUnits v (upsetUnits v (inTier0 v))).1) ∧
    (∀ (y : Upset) z old n, isRunning s = true → s.pool.upsets = [] → y.bits ≠ 0 → y.unit.cut = none → y.unit.kind = .line →
      contentsOf s none y.unit.tile = some z → unitData s y.unit = some old →
      ∀ word, word = List.zipWith (· ^^^ ·) (unitBytes y.unit old.1 old.2) ((leBytes 72 y.bits.toNat).map fun b => b.toNat) →
      (z.res.tier ≠ 0 → exec (.tier0DailyScrub [y] []) s = .next { s with pool := { s.pool with upsets := [y] } }) ∧
      (z.res.tier = 0 → decodeUnit y.unit word = some (old.1, old.2, n) → n ≠ 0 →
        exec (.tier0DailyScrub [y] []) s = .next { s with pool := { s.pool with corrected := s.pool.corrected + 1 } }) ∧
      (z.res.tier = 0 → decodeUnit y.unit word = none → Answers s (.tier0DailyScrub [y] []) fun t => t.pool.mem = s.pool.mem ∧
        (1024 * y.unit.tile + y.unit.i, Mark.poisoned) ∈ t.pool.marks ∧ t.pool.upsets = [] ∧ t.hlth.serial = s.hlth.serial + 1 ∧ t.maps = s.maps))

/-- R330, R333 to R339: power and heat. The cap is set within its limits and is in effect at that instant; samples of the last 1 ms are
kept, with what the rails and sensors show; only work in hand is given energy beyond what is booked, and a cluster of a hot die keeps its
booked clock; an overrun of the cap is counted, recorded and takes back what was
given; a die is hot from 105 C until it reads below 104 C, and counted once; the trip stops every clock and lane.
The model's own choices in it: log entry 94. -/
def Obligations.PowerAndHeat : Prop :=
  ∀ (s : State) (e : Nat) (en : Entry) (n die : Nat) (rails temps : List Nat),
    (CanRun s e 0xA0 en → (entryRoom en ≠ 0 → Answers s (.powerCap e) fun t => Ended t e 0x03 0 0 ∧ OnlyEntry s t e) ∧
      (entryRoom en = 0 → ∀ cap, cap = clampCap s (descField en.desc 16 2) → cap < 65536 → Answers s (.powerCap e) fun t => t.innk = { s.innk with capSw := cap } ∧
        Ended t e 0x00 cap (effectiveCap { s with innk := { s.innk with capSw := cap } } / 1000) ∧ t.pool = s.pool ∧ t.maps = s.maps)) ∧
    (isRunning s = true →
      (Answers s (.fixedPowerSample { mw := n, rails := rails, temps := temps }) fun t => t = { s with innk := t.innk } ∧ t.innk.samples = (n :: s.innk.samples).take 1000 ∧
        t.innk.draws = (rails.sum :: s.innk.draws).take 1000 ∧ t.innk.drawMw = t.innk.draws.sum / t.innk.draws.length ∧ t.innk.drawAt = s.time.now ∧
        (∀ k < 8, t.innk.temps.getD k 0 = temps.getD k (s.innk.temps.getD k 0)) ∧ t.innk.dieMw = railShares s rails ∧ t.innk.capSw = s.innk.capSw ∧
        t.innk.hot = s.innk.hot ∧ t.innk.bookings = s.innk.bookings) ∧
      (s.ledger.entries = [] → (∀ m ∈ movers s, m.mig = .settled) → Answers s (.bucketTick n) fun t => t.innk.given = []) ∧
      (Answers s (.bucketTick n) fun t =>
        t = { s with innk := { s.innk with given := t.innk.given }, engine := { s.engine with clocks := t.engine.clocks }, freeCount := s.freeCount + 1 } ∧
        (∀ g ∈ t.innk.given, g.1 ∈ roomsAtWork s 1 ∨ g.1 ∈ roomsAtWork s 2) ∧
        ∀ c < 144, s.innk.hot.contains (c / 36) = true ∨ clusterGated s c = true → clusterClock t c = bookedClock s c) ∧
      (n * 1000 ≤ effectiveCap s → exec (.capOverrun n) s = .next s) ∧
      (effectiveCap s < n * 1000 → Answers s (.capOverrun n) fun t => t.innk = { s.innk with
          drawMw := n * 1000, drawAt := s.time.now, given := [], capOverruns := s.innk.capOverruns + 1 } ∧ t.hlth.serial = s.hlth.serial + 1 ∧ t.pool = s.pool) ∧
      (die < 8 → (n < 420 → exec (.thermalCondition die n) s = .next s) ∧
        (420 ≤ n → die ∈ s.innk.hot → exec (.thermalCondition die n) s = .next { s with innk := { s.innk with temps := s.innk.temps.set die n } }) ∧
        (420 ≤ n → die ∉ s.innk.hot → Answers s (.thermalCondition die n) fun t => t.innk = { s.innk with
            temps := s.innk.temps.set die n, hot := s.innk.hot ++ [die], hotEntries := s.innk.hotEntries + 1 } ∧
          t.hlth.serial = s.hlth.serial + 1 ∧ t.pool = s.pool) ∧
        (n < 416 → exec (.thermalConditionEnd die n) s = .next { s with innk := { s.innk with
          temps := s.innk.temps.set die n, hot := s.innk.hot.filter (· != die) } }) ∧
        (416 ≤ n → exec (.thermalConditionEnd die n) s = .next s) ∧
        (Answers s (.thermalTrip die) fun t => t.boot.power = .off ∧ t.hlth.state = .failed ∧ t.out = s.out ++ [.pin 1 true] ∧ t.pool = s.pool ∧
          t.maps = s.maps ∧ (∀ q ∈ t.fab.ports, q.up = false) ∧ (∀ q ∈ t.fab.brg, q.up = false) ∧ ∀ q ∈ t.fab.flex, q.up = false)))

/-- R348, R355, R357 and R358: the twin pair. The heartbeat is the fabric time, in the header of the mirror in use. The witness is read by
a SYNC_LD and claimed by a SYNC_CAS of 0 against the own ID, engine 517: a switch that reads
the other's ID in the witness stops, and so does one that has neither a fresh heartbeat nor a completed read of it; a claim goes
to the witness only while the partner's heartbeat is stale, and wins where it read 0; the winner takes over once, T_take / 2 after it.
The model's own choices in it: log entries 63, 98, 99 and 100. -/
def Obligations.TwinPairs : Prop :=
  ∀ (s v : State) (m : MirrorImage) (a : Word), isRunning s = true → v = seeBeat s →
    (let h : State := { s with twin := { s.twin with ownBeat := s.time.now } }
     mirrorTarget s = s.ledger.target →
      (s.ledger.target = 0 → exec .heartbeat s = .next h) ∧
      (s.ledger.target ≠ 0 → exec .heartbeat s = .next (mirrorWrite h 0 0 (headerImage h) 8 8)) ∧
      (s.ledger.target = 2 → Answers s .heartbeat fun t => t = { h with out := s.out ++ [.mirror 0 0 (headerImage h)] })) ∧
    (twinPresent s = true → witnessPresent s = true →
      (∀ y, s.own.got.find? (fun y => y.who == .twin) = some y →
        (y.status ≠ 0x00 → exec (.witnessCheck a) s = .next (dropGot v .twin)) ∧
        (∀ b : Word, y.status = 0x00 → b = BitVec.ofNat 64 (leVal (y.data.take 8)) →
          (b = 0 ∨ b.toNat ≠ (twinId s).toNat → Answers s (.witnessCheck a) fun t => t.twin = { v.twin with witnessAt := s.time.now } ∧ t.hlth = s.hlth ∧
            t = { s with twin := t.twin, own := t.own }) ∧
          (b ≠ 0 → b.toNat = (twinId s).toNat → s.hlth.state ≠ .failed → Answers s (.witnessCheck a) fun t => t.hlth.state = .failed ∧
            t.boot.power = .failed ∧ t.pool = s.pool))) ∧
      (s.own.got.find? (fun y => y.who == .twin) = none →
        (awaits s .twin = true → exec (.witnessCheck a) s = .next v) ∧
        (awaits s .twin = false → exec (.witnessCheck a) s = .next (takeWitness (askOwn v .twin 517 (.sync .ld 0 0 0) (witnessGfa s) 8 0 0 0)))) ∧
      (beatStale v = false ∨ s.twin.claimed ≠ none → exec (.twinClaim a) s = .next v) ∧
      (beatStale v = true → s.twin.claimed = none →
        (∀ y, s.own.got.find? (fun y => y.who == .claim) = some y →
          (y.status = 0x00 → leVal (y.data.take 8) = 0 → Answers s (.twinClaim a) fun t => t.twin.claimed = some s.time.now ∧ t.pool = s.pool) ∧
          (y.status ≠ 0x00 ∨ BitVec.ofNat 64 (leVal (y.data.take 8)) ≠ 0 → exec (.twinClaim a) s = .next (dropGot v .claim))) ∧
        (s.own.got.find? (fun y => y.who == .claim) = none →
          (awaits s .claim = true → exec (.twinClaim a) s = .next v) ∧
          (awaits s .claim = false → exec (.twinClaim a) s =
            .next (takeClaim (askOwn v .claim 517 (.sync .cas 0 (BitVec.ofNat 64 (selfId s).toNat) 0) (witnessGfa s) 8 0 0 0))))) ∧
      (beatStale v = true → s.twin.witnessAt + tTake s / 4 ≤ s.time.now → s.hlth.state ≠ .failed → Answers s .twinStop fun t =>
        t.hlth.state = .failed ∧ t.boot.power = .failed ∧ t.pool = s.pool) ∧
      (beatStale v = false ∨ s.time.now < s.twin.witnessAt + tTake s / 4 → exec .twinStop s = .next v)) ∧
    (∀ tC, s.twin.claimed = some tC →
      (twinId s ∈ s.twin.adopted ∨ s.time.now < tC + tTake s / 2 → exec (.takeover m) s = .next s) ∧
      (twinPresent s = true → twinId s ∉ s.twin.adopted → tC + tTake s / 2 ≤ s.time.now → (∀ y ∈ movers s, y.mig ≠ .disputed) →
        ∃ u, exec (.takeover m) s = .next (settleAll (pump u)) ∧ twinId s ∈ u.twin.adopted ∧ u.twin.claimed = some tC ∧
          ∀ r ∈ u.rooms.rooms, r.holder ≠ twinId s ∨ twinId s = selfId s)) ∧
    (s.twin.claimed = none → exec (.takeover m) s = .next s)

/-- R393: action 1 of FW_UPDATE raises the fused minimum to the security version of the image that runs, completes with the new minimum,
and leaves a minimum that is as high alone. No command undoes it: the minimum never falls, and no other command changes it. -/
def Obligations.TheFusedMinimumOnlyRises : Prop :=
  (∀ (s : State) (e : Nat) (en : Entry), CanRun s e 0x83 en → entryRoom en = 0 → descField en.desc 28 1 = 1 → fwBusy (startEntry s e) en.n = false →
    Answers s (.fwUpdateCommitSvn e) fun t => t.fuses = { s.fuses with minSvn := max s.fuses.minSvn s.boot.measure.svn } ∧
      t.boot = s.boot ∧ t.pool = s.pool ∧ Ended t e 0x00 (max s.fuses.minSvn s.boot.measure.svn) 0) ∧
  (∀ (s t : State) (i : Instr), exec i s = .next t → s.fuses.minSvn ≤ t.fuses.minSvn ∧
    ((∀ e, i ≠ .fwUpdateCommitSvn e) → t.fuses.minSvn = s.fuses.minSvn))

/-- R444: `FILT.ARR_n` lies at 8n of the FILT block; its high half counts the false hits that array n discarded, its low half the scrub
rewrites, each up to all ones; it is read-only, so a write to it changes nothing. -/
def Obligations.FilterCountersReadAsCounted : Prop :=
  ∀ (s : State) (n : Nat) (v : Word), n < 8 →
    (∃ w, readReg s (filtBase + 8 * n) = some w ∧ (w.extractLsb' 32 32).toNat = min (countAt s.filt.falseHits n) (2 ^ 32 - 1) ∧
      (w.extractLsb' 0 32).toNat = min (countAt s.filt.rewrites n) (2 ^ 32 - 1)) ∧
    (bar0Open s = true → exec (.registerWrite (filtBase + 8 * n) 8 v) s = .next s)

namespace Sys2Proof.Machine

/-- Command `i` sends one link control flit of code 0x30 with bytes 8 to 407 `l` on port `n`, whose record becomes `q`; a flit under the
session's key is counted. Nothing else changes. -/
def SendsTime (s : State) (i : Instr) (n : Nat) (q : FabPort) (l : List Byte) : Prop :=
  Answers s i fun t => (∃ w, t.out = s.out ++ [.linkCtl n 0x30 l w]) ∧ t = { s with fab := { s.fab with ports := t.fab.ports }, out := t.out } ∧
    fabPort t n = some { q with sess := { q.sess with txCount := q.sess.txCount + 1 } }

end Sys2Proof.Machine

/-- R316 to R321, R410 and R442: the time reference. Each sync interval a frame goes out on every fabric port that is up; a request is
answered with the time it arrived; a response gives half the difference of the two ways as the offset. The first offset is removed by
one step, before any acceptance, later ones by slewing; a source named after the one in use is taken only when that one cannot answer. Without a source after 2 s the
reference runs free; in holdover it keeps its rate. PTP that the switch does not support is counted and discarded.
The model's own choices in it: log entries 117, 118 and 119. -/
def Obligations.TimeFollowsItsSource : Prop :=
  ∀ (s : State) (n : Nat) (f : TimeFrame) (q : FabPort), isRunning s = true → n < 128 → fabPort s n = some q → q.up = true → q.sess.phase = 6 →
    (s.fab.ports = [q] → SendsTime s .timeSyncTick n { q with syncSeq := q.syncSeq + 1 } (timeFrame s 0x00 q.syncSeq 0)) ∧
    (SendsTime s (.delayRequest n f) n q (timeFrame s 0x02 f.seq f.tRx)) ∧
    (s.time.follow = none → exec .delayRequestTick s = .next s) ∧
    (∀ u, s.time.follow = some (n, u) →
      (SendsTime s .delayRequestTick n { q with reqSeq := q.reqSeq + 1, reqTx := some s.time.now } (timeFrame s 0x01 (q.reqSeq + 1) 0)) ∧
      (∀ tq a b, q.reqTx = some tq → q.lastSync = some (a, b) → f.seq = q.reqSeq → sourceRank s 2 ≤ sourceRank s s.time.source →
        Answers s (.delayResponse n f) fun t => t.time.source = 2 ∧ t.maps = s.maps ∧ t.pool = s.pool ∧
          (s.time.accepted = true ∨ s.time.stepped = true → t.time.offset = syncOffset a b tq f.tReq ∧ t.time.slew = -(syncOffset a b tq f.tReq) ∧
            t.time.now = s.time.now))) ∧
    ((s.time.follow = none ∨ ∃ m u, s.time.follow = some (m, u) ∧ (m = n ∨ portUp s m = false)) → Answers s (.timeSync n f) fun t => (t.time.follow.map fun x => x.1) = some n ∧
      ∃ q', fabPort t n = some q' ∧ q' = { q with lastSync := some (f.tTx, f.tRx) }) ∧
    (∀ (src : BitVec 2) (o : Int),
      (sourceGone s = false → sourceRank s s.time.source < sourceRank s src.toNat → exec (.timeSourceAnswer src o) s = .next s) ∧
      (sourceGone s = true ∨ sourceRank s src.toNat ≤ sourceRank s s.time.source → src = 3 →
        exec (.timeSourceAnswer src o) s = .next { s with time := { s.time with source := 3, lock := 3, slew := 0 } }) ∧
      (sourceGone s = true ∨ sourceRank s src.toNat ≤ sourceRank s s.time.source → src ≠ 3 → Answers s (.timeSourceAnswer src o) fun t => t = { s with time := t.time } ∧
        t.time.source = src.toNat ∧
        (s.time.accepted = false → s.time.stepped = false → t.time.stepped = true ∧ t.time.now = (((s.time.now : Int) - o) % ((2 ^ 64 : Nat) : Int)).toNat ∧
          t.time.lock = 0 ∧ t.time.copy = max s.time.copy s.time.now) ∧
        (s.time.accepted = true → t.time.now = s.time.now ∧ t.time.offset = o ∧ t.time.slew = -o ∧ (t.time.lock = 0 ↔ -5 ≤ o ∧ o ≤ 5)))) ∧
    (s.time.lock = 1 → s.time.source = 3 → (s.time.now < s.time.lockedAt + 2000000000 → exec .timeSourceWait s = .next s) ∧
      (s.time.lockedAt + 2000000000 ≤ s.time.now → exec .timeSourceWait s = .next { s with time := { s.time with lock := 3, source := 3 } })) ∧
    (s.time.source ≠ 3 → exec .holdover s = .next { s with time := { s.time with
      lock := 2, source := 3, follow := none, ptp := none, slew := 0 } }) ∧
    (∀ (k : PtpKind) (d : Nat) (p : PtpInfo) (b : BrgPort) (m : Nat), m < 16 → brgPort s m = some b → b.up = true →
      (ptpEn s m = false → Answers s (.ptpMessage (128 + m) k d p) fun t => t = { s with fab := { s.fab with brg := t.fab.brg } } ∧
        brgPort t m = some { b with otherDiscards := b.otherDiscards + 1 }) ∧
      (ptpEn s m = true → d ≠ ptpDomain s ∨ k = .peerDelay ∨ k = .management ∨ k = .signaling → exec (.ptpMessage (128 + m) k d p) s =
        .next { s with time := { s.time with ptpDiscards := s.time.ptpDiscards + 1 } }) ∧
      (ptpEn s m = true → d = ptpDomain s → k = .announce → s.time.ptp = none → Answers s (.ptpMessage (128 + m) k d p) fun t => t = { s with time := t.time } ∧
        (t.time.ptp.map fun x => x.1) = some (128 + m))) ∧
    (∀ tod, tod ≠ 0 → sourceRank s 1 ≤ sourceRank s s.time.source → Answers s (.ppsIn tod) fun t => t = { s with time := t.time } ∧ t.time.lastPps = some tod ∧
      t.time.source = 1) ∧
    (s.time.ppsHigh = none → s.time.now % 1000000000 ≤ 10 ∨ 999999990 ≤ s.time.now % 1000000000 → exec .ppsOut s = .next { s with
      time := { s.time with ppsHigh := some (s.time.now + 1000000) }, out := s.out ++ [.pin 0 true] }) ∧
    (s.time.ppsHigh ≠ none ∨ 10 < s.time.now % 1000000000 ∧ s.time.now % 1000000000 < 999999990 → exec .ppsOut s = .next s)

namespace Sys2Proof.Machine

/-- Handshake `h` is under way on fabric port `n`, in a phase, outside any session. -/
def Shaking (s : State) (n : Nat) (q : FabPort) (h : Session) (phase : Nat) : Prop :=
  isRunning s = true ∧ n < 128 ∧ fabPort s n = some q ∧ q.up = true ∧ q.resess = none ∧ q.sess = h ∧ h.phase = phase

/-- The handshake of port `n` has failed with a cause: ABORT went out, the port waits for its retry, and the failure is recorded. -/
def HandshakeFails (s : State) (i : Instr) (n : Nat) (q : FabPort) (cause : Nat) : Prop :=
  ∃ u, exec i s = .next (pump u) ∧ (∃ l w, Out.linkCtl n 0x10 l w ∈ u.out ∧ l.getD 1 0 = 0x07 ∧ l.getD 16 0 = BitVec.ofNat 8 cause) ∧
    u.keys.secFaults = s.keys.secFaults + 1 ∧ u.pool = s.pool ∧ u.maps = s.maps ∧
    ∃ q', fabPort u n = some q' ∧ q'.up = false ∧ q'.sess.phase = 0 ∧ q'.sess.retryAt = some (s.time.now + q.sess.backoff * 1000000) ∧
      q'.sess.backoff = min 10000 (2 * q.sess.backoff)

end Sys2Proof.Machine

/-- R376 and R377, Table 16-4: the handshake step by step. The end with the lower hash initiates; certificates go out after HELLO; the
initiator shares its key, the responder encapsulates to it; both verify and finish; the session is established with the keys of the
role. A check that fails aborts the attempt with its cause, and the port waits. A message out of its step changes nothing.
The model's own choices in it: log entries 18, 112 and 115. -/
def Obligations.SessionsAreEstablished : Prop :=
  ∀ (s : State) (n : Nat) (q : FabPort) (h : Session) (nonce mac : BitVec 256) (devid : BitVec 384) (chain : ChainSeen) (ek ct : BitVec 12544) (sig : List Byte)
    (agent : AgentId) (t0 : Nat),
    (Shaking s n q h 1 → hasMsg h 0x01 false = false →
      (Answers s (.hello n nonce devid 0x0001) fun t => t = { s with fab := { s.fab with ports := t.fab.ports }, out := t.out } ∧
        ∃ q', fabPort t n = some q' ∧ q'.sess.phase = 1 ∧ q'.sess.peerDevid = devid ∧ hasMsg q'.sess 0x01 false = true ∧ hasMsg q'.sess 0x02 true = true ∧
          (q'.sess.initiator = true ↔ leVal (hashBytes (devidHash s)).reverse < leVal (hashBytes devid).reverse)) ∧
      (∀ v, v ≠ 0x0001 → HandshakeFails s (.hello n nonce devid v) n q 5)) ∧
    (Shaking s n q h 1 → hasMsg h 0x01 false = true →
      (exec (.hello n nonce devid 0x0001) s = .next s) ∧
      (((List.range 16).any (fun k => anchor s k == chain.root) && chain.signaturesOk) = true → Answers s (.certs n chain) fun t => t.pool = s.pool ∧
        ∃ q', fabPort t n = some q' ∧ q'.sess.phase = 2 ∧ q'.sess.initiator = h.initiator ∧ hasMsg q'.sess 0x02 false = true ∧
          (h.initiator = true → hasMsg q'.sess 0x03 true = true)) ∧
      (((List.range 16).any (fun k => anchor s k == chain.root) && chain.signaturesOk) = false → HandshakeFails s (.certs n chain) n q 1)) ∧
    (Shaking s n q h 2 →
      (h.initiator = true → exec (.keyShare n ek) s = .next s) ∧ (h.initiator = false → exec (.keyEncap n ct) s = .next s) ∧
      (h.initiator = false → Answers s (.keyShare n ek) fun t => t.pool = s.pool ∧ t.keys.draws = s.keys.draws + 1 ∧ ∃ q', fabPort t n = some q' ∧
        q'.sess.phase = 4 ∧ q'.sess.ss = Config.kemSs ek (BitVec.ofNat 256 (Config.drbg s.keys.draws 256)) ∧ hasMsg q'.sess 0x04 true = true ∧
        hasMsg q'.sess 0x05 true = true) ∧
      (h.initiator = true → Answers s (.keyEncap n ct) fun t => t.pool = s.pool ∧ t.keys = s.keys ∧ ∃ q', fabPort t n = some q' ∧
        q'.sess.phase = 4 ∧ q'.sess.ss = Config.kemDecaps h.dk ct ∧ hasMsg q'.sess 0x05 true = true)) ∧
    (Shaking s n q h 4 → (HandshakeFails s (.verify n sig false) n q 2) ∧ Answers s (.verify n sig true) fun t => t.pool = s.pool ∧ t.keys = s.keys ∧
      ∃ q', fabPort t n = some q' ∧ q'.sess.phase = 5 ∧ hasMsg q'.sess 0x05 false = true ∧ hasMsg q'.sess 0x06 true = true) ∧
    (Shaking s n q h 5 →
      (mac ≠ finishedMac h (!h.initiator) → HandshakeFails s (.finished n mac agent t0) n q 3) ∧
      (mac = finishedMac h (!h.initiator) → s.fab.unrouted = [] → Answers s (.finished n mac agent t0) fun t => t.pool = s.pool ∧ t.maps = s.maps ∧
        (∃ q', fabPort t n = some q' ∧ q'.sess.phase = 6 ∧ q'.sess.initiator = h.initiator ∧ q'.sess.peerDevid = h.peerDevid ∧ q'.sess.transcript = [] ∧
          q'.sessAt = s.time.now) ∧
        (agentPort s n = true → { agent := agent, port := n, tSnp := min 2000 t0 } ∈ t.fab.attach)))

/-- R373, R377, R379, R380 and R409: sessions that fail, wait and renew their keys. An ABORT of the peer, or 2 ms without the end of the
handshake, takes the port down until its wait is over; a key is replaced by its successor, under the next generation only; after 24 h
a handshake runs inside the session. A TWIN_KEY under another generation of the pair is discarded with a security fault.
The model's own choices in it: log entries 113, 114 and 116. -/
def Obligations.SessionsFailAndRenew : Prop :=
  ∀ (s : State) (n : Nat) (q : FabPort), isRunning s = true → n < 128 → fabPort s n = some q → q.resess = none →
    (q.up = true → 1 ≤ q.sess.phase → q.sess.phase ≤ 5 → ∀ cause,
      (∃ u, exec (.abort n cause) s = .next (pump u) ∧ u.pool = s.pool ∧ u.out = s.out ∧ ∃ q', fabPort u n = some q' ∧ q'.up = false ∧ q'.sess.phase = 0 ∧
        q'.sess.retryAt = some (s.time.now + q.sess.backoff * 1000000)) ∧
      (s.time.now < q.sess.started + 2000000 → exec (.sessionTimeout n) s = .next s) ∧
      (q.sess.started + 2000000 ≤ s.time.now → HandshakeFails s (.sessionTimeout n) n q 4)) ∧
    (q.up = false → q.sess.phase = 0 → ∀ t0, q.sess.retryAt = some t0 → fabEn s n = true → 0 < min q.lanes (fabTrainable s n) →
      (s.time.now < t0 → exec (.sessionRetry n) s = .next s) ∧
      (t0 ≤ s.time.now → Answers s (.sessionRetry n) fun t => t.pool = s.pool ∧ ∃ q', fabPort t n = some q' ∧ q'.up = true ∧ q'.sess.phase = 1 ∧
        q'.sess.backoff = q.sess.backoff ∧ q'.sess.retryAt = none)) ∧
    (q.up = true → q.sess.phase = 6 → (∀ seq gen, gen ≠ q.sess.rxGen + 1 → exec (.keyUpdate n seq gen) s = .next s) ∧
      (∀ seq, Answers s (.keyUpdate n seq (q.sess.rxGen + 1)) fun t => t = { s with fab := { s.fab with ports := t.fab.ports } } ∧
        ∃ q', fabPort t n = some q' ∧ q'.sess = { q.sess with
          kRxOld := q.sess.kRx, kRx := nextKey q.sess.kRx, rxGen := q.sess.rxGen + 1, rxSwitch := some seq }) ∧
      (q.sess.txCount < 2 ^ 32 → exec (.keyUpdateCount n) s = .next s) ∧
      (2 ^ 32 ≤ q.sess.txCount → Answers s (.keyUpdateCount n) fun t => t = { s with fab := { s.fab with ports := t.fab.ports }, out := t.out } ∧
        t.out.length = s.out.length + 1 ∧ ∃ q', fabPort t n = some q' ∧ q'.sess = { q.sess with
          kTx := nextKey q.sess.kTx, txCount := 0, txGen := q.sess.txGen + 1 }) ∧
      (s.time.now < q.sessAt + 86400000000000 → exec (.rehandshake24h n) s = .next s) ∧
      (q.sessAt + 86400000000000 ≤ s.time.now → Answers s (.rehandshake24h n) fun t => t.pool = s.pool ∧ ∃ q' h, fabPort t n = some q' ∧ q'.up = true ∧
        q'.sess = { q.sess with txCount := q.sess.txCount + 1 } ∧ q'.resess = some h ∧ h.phase = 1 ∧ hasMsg h 0x01 true = true) ∧
      (twinPort s n = true → ∀ gp ek ct, gp ≠ pairGen s → Answers s (.twinKey n gp ek ct) fun t => t.keys = { s.keys with secFaults := s.keys.secFaults + 1 } ∧
        t.hlth.serial = s.hlth.serial + 1 ∧ t.pool = s.pool) ∧
      (twinPort s n = true → ∀ ek, s.keys.peerEk = none → Answers s (.twinKey n (pairGen s) ek 0) fun t =>
        t.keys = { s.keys with peerEk := some ek } ∧ t = { s with fab := { s.fab with ports := t.fab.ports }, keys := t.keys, out := t.out } ∧ s.out.length < t.out.length)) ∧
    (∀ k (b : BrgPort), k < 16 → brgPort s k = some b → b.up = true → b.sess.phase = 6 →
      (b.pn < 2 ^ 40 → exec (.macsecRekey (128 + k)) s = .next s) ∧
      (2 ^ 40 ≤ b.pn → Answers s (.macsecRekey (128 + k)) fun t => t.pool = s.pool ∧ ∃ b', brgPort t k = some b' ∧ b'.sak = nextSak b.sak ∧ b'.an = b.an + 1 ∧
        b'.pn = 0 ∧ b'.salt = b.salt ∧ b'.sess.txGen = b.sess.txGen + 1))

/-- R406 to R409: bridge frames. A frame that fails validation is discarded and counted; a numbered one is taken only in sequence, and its
acknowledgement is owed at once; the frames it acknowledges are kept no longer. An acknowledgement that no frame carries goes out after
2 us, a keepalive after 100 us without traffic; after the timeout every frame from the oldest on is sent again, and the ninth time takes
the port down, as silence for T_dead does. The model's own choices in it: log entries 51 and 120. -/
def Obligations.BridgeFramesAreTakenInOrder : Prop :=
  ∀ (s : State) (k : Nat) (q : BrgPort) (f : BridgeFrame), isRunning s = true → k < 16 → brgPort s k = some q → q.up = true → q.sess.phase = 6 →
    (let taken (q' : BrgPort) : Prop := q'.unacked = q.unacked.filter (fun x => !frameBefore x.seq f.ack) ∧
       q'.credits = addAt q.credits f.creditVc.toNat f.creditSlots.toNat ∧ q'.lastAccept = s.time.now
     let freesOnly (t : State) : Prop := t = { s with fab := { s.fab with ports := t.fab.ports, brg := t.fab.brg } } ∧
       t.fab.ports.map (fun p => { p with owed := [] }) = s.fab.ports.map (fun p => { p with owed := [] })
     let sent (t : State) (kind : Nat) : Prop := (∃ a, t.out = s.out ++ [.bridge k kind 0 q.rxSeq a [] [] false]) ∧
       t = { s with fab := { s.fab with brg := t.fab.brg, turn := t.fab.turn, returned := t.fab.returned }, out := t.out }
     (f.valid = true → f.seq = q.rxSeq → ∃ u, exec (.bridgeDataFrame (128 + k) f) s = .next (f.packets.foldl (framePacket k f.outerCe) u) ∧ freesOnly u ∧
       ∃ q', brgPort u k = some q' ∧ taken q' ∧ q'.rxSeq = q.rxSeq + 1 ∧ q'.ackOwed = some (q.ackOwed.getD s.time.now)) ∧
     (f.valid = true → f.seq = q.rxSeq → Answers s (.bridgeControlFrame (128 + k) f) fun u => freesOnly u ∧
       ∃ q', brgPort u k = some q' ∧ taken q' ∧ q'.rxSeq = q.rxSeq + 1 ∧ q'.ackOwed = some (q.ackOwed.getD s.time.now)) ∧
     (∀ i, i ∈ [Instr.bridgeDataFrame (128 + k) f, .bridgeControlFrame (128 + k) f] → f.valid = true → f.seq ≠ q.rxSeq → exec i s = .next s) ∧
     (∀ i, i ∈ [Instr.bridgeAckFrame (128 + k) f, .bridgeKeepalive (128 + k) f] → f.valid = true → Answers s i fun t => freesOnly t ∧
       ∃ q', brgPort t k = some q' ∧ taken q' ∧ q'.rxSeq = q.rxSeq ∧ q'.ackOwed = q.ackOwed) ∧
     (∀ i, i ∈ [Instr.bridgeDataFrame (128 + k) f, .bridgeControlFrame (128 + k) f, .bridgeAckFrame (128 + k) f, .bridgeKeepalive (128 + k) f] →
       f.valid = false →
       (q.failWin.2 < 15 ∨ q.failWin.1 + 1000000 ≤ s.time.now → Answers s i fun t => t = { s with fab := { s.fab with brg := t.fab.brg } } ∧
         ∃ q', brgPort t k = some q' ∧ q'.valFails = q.valFails + 1 ∧ q'.rxSeq = q.rxSeq ∧ q'.unacked = q.unacked ∧ q'.credits = q.credits) ∧
       (15 ≤ q.failWin.2 → s.time.now < q.failWin.1 + 1000000 → ∃ u, exec i s = .next (pump (portDown u (128 + k))) ∧ u.pool = s.pool ∧
         u.keys.secFaults = s.keys.secFaults + 1)) ∧
     (∀ t0, q.ackOwed = some t0 → (s.time.now < t0 + 2000 → exec (.bridgeAckTick (128 + k)) s = .next s) ∧
       (t0 + 2000 ≤ s.time.now → Answers s (.bridgeAckTick (128 + k)) fun t => sent t 1 ∧ ∃ q', brgPort t k = some q' ∧ q'.ackOwed = none ∧ q'.txSeq = q.txSeq)) ∧
     (s.time.now < q.lastSent + 100000 → exec (.bridgeKeepaliveTick (128 + k)) s = .next s) ∧
     (q.lastSent + 100000 ≤ s.time.now → Answers s (.bridgeKeepaliveTick (128 + k)) fun t => sent t 3 ∧
       ∃ q', brgPort t k = some q' ∧ q'.lastSent = s.time.now ∧ q'.txSeq = q.txSeq) ∧
     (∀ x, q.unacked = [x] →
       (s.time.now < max q.lastAckAt x.sentAt + rto q → exec (.bridgeRto (128 + k)) s = .next s) ∧
       (max q.lastAckAt x.sentAt + rto q ≤ s.time.now → x.resends < 8 → Answers s (.bridgeRto (128 + k)) fun t =>
         t.out = s.out ++ [.bridge k (if x.control then 2 else 0) x.seq q.rxSeq (0, 0) (x.packets.map fun p => p.pkt) x.content (x.packets.any fun p => p.marked)] ∧
           ∃ q', brgPort t k = some q' ∧ q'.resent = q.resent + 1 ∧ q'.unacked = [{ x with resends := x.resends + 1 }] ∧ q'.txSeq = q.txSeq) ∧
       (max q.lastAckAt x.sentAt + rto q ≤ s.time.now → 8 ≤ x.resends → exec (.bridgeRto (128 + k)) s = .next (pump (portDown s (128 + k))))) ∧
     (q.unacked = [] → exec (.bridgeRto (128 + k)) s = .next s) ∧
     (s.time.now < q.lastAccept + tDead s → exec (.bridgeSilence (128 + k)) s = .next s) ∧
     (q.lastAccept + tDead s ≤ s.time.now → exec (.bridgeSilence (128 + k)) s = .next (pump (portDown s (128 + k)))))

namespace Sys2Proof.Machine

/-- Request `p` of the agent of flex port `k`, under the host's tag `host`, leaves `u` for `t`: it enters the switch, unless an earlier one of
its flow (same home, same ordered class) waits or was flushed; then it waits too. -/
def FlexIssues (u : State) (k : Nat) (host : Tag) (p : Packet) (t : State) : Prop :=
  ∀ q, flexPort u k = some q →
    (let stopped := ∃ y ∈ q.again ++ q.sent.filter (fun y => y.flushed), homeOf y.pkt.w2 = homeOf p.w2 ∧ y.pkt.ocls = p.ocls
     (stopped → ∃ v, t = pump v ∧ v = { u with fab := { u.fab with flex := v.fab.flex } } ∧
       flexPort v k = some { q with again := q.again ++ [{ host := host, pkt := p }] }) ∧
     (¬ stopped → ∃ v, t = pump (ingress v (144 + k) p) ∧ v = { u with fab := { u.fab with flex := v.fab.flex } } ∧
       flexPort v k = some { q with sent := q.sent ++ [{ host := host, pkt := p }] }))

end Sys2Proof.Machine

/-- R403 and R404: flex ports in device role. An access in the window becomes a request of the port's agent, of its room, for the whole
line (one store for each run of enabled bytes), and waits while an earlier one of its flow does (R75); one outside it reads ones with poison, or is acknowledged. A BIRsp answers its snoop and
no other. Keys are set in an authenticated session only, IDE becomes active with keys only, and a port without it after 100 ms goes
down and waits. The model's own choices in it: log entry 121. -/
def Obligations.FlexPortsIssueRequests : Prop :=
  ∀ (s : State) (k : Nat) (q : FlexPort) (off : Word) (d : List Byte) (tag : Tag) (gen : Gen), isRunning s = true → k < 16 → flexPort s k = some q → q.up = true →
    (q.ideActive = true → flexDevice s k = true → ∀ g, q.biEnable = true → flexGfa s k off = some g →
      (∀ r op, (r, op) ∈ [(CxlRead.plain, 0x00#8), (.shared, 0x02#8), (.exclusive, 0x03#8)] → Answers s (.cxlMemrd (144 + k) off r tag gen)
        (FlexIssues s k tag (flexPacket s k op vcReqR 0 0 tag (lineGfa (lineKey g)) (flexWord3 64 gen) []))) ∧
      (∃ u q', Answers s (.cxlMemwr (144 + k) off d tag gen) (FlexIssues u k tag (if flexOwns s k (lineGfa (lineKey g)) = true
          then flexPacket u k 0x61 vcWb 0 0 tag (lineGfa (lineKey g)) (flexWord3 64 gen) (d.take 64)
          else flexPacket u k 0x08 vcReqR 0 0 tag (lineGfa (lineKey g)) (flexWord3 64 gen) (d.take 64))) ∧
        u = { s with fab := { s.fab with flex := u.fab.flex } } ∧ flexPort u k = some q' ∧ q' = { q with snoops := q'.snoops, unique := q'.unique } ∧
        lineKey (lineGfa (lineKey g)) ∉ q'.unique ∧ ∀ x ∈ q'.snoops, lineKey x.gfa = lineKey (lineGfa (lineKey g)) → x.written = true) ∧
      (Answers s (.cxlMemwrptl (144 + k) off d 0 tag gen) fun t => t = { s with out := t.out } ∧ t.out = s.out ++ [.cxl k tag false []]) ∧
      (∀ e r, enabledRuns e = [r] → ∃ u, Answers s (.cxlMemwrptl (144 + k) off d e tag gen) (FlexIssues u k tag
          (flexPacket u k 0x08 vcReqR 0b01 0 tag (lineGfa (lineKey g) + BitVec.ofNat 64 r.1) (flexWord3 r.2 gen) ((d.drop r.1).take r.2))) ∧
        u = { s with fab := { s.fab with flex := u.fab.flex } } ∧ flexPort u k = some { q with partials := q.partials ++ [(tag, [tag])] }) ∧
      (∀ e, enabledRuns e ≠ [] → ∃ u q' more, exec (.cxlMemwrptl (144 + k) off d e tag gen) s = .next (pump (((enabledRuns e).zip ((tag, gen) :: more)).foldl
          (flexStore k (lineGfa (lineKey g)) d) u)) ∧ flexPort u k = some q' ∧ (tag, tag :: more.map fun x => x.1) ∈ q'.partials ∧ u.pool = s.pool ∧
        ∀ x ∈ more, ∀ y ∈ q.sent ++ q.again, y.pkt.tag ≠ x.1)) ∧
    (q.ideActive = true → flexDevice s k = true → q.biEnable = false ∨ flexGfa s k off = none →
      (∀ r, exec (.cxlMemrd (144 + k) off r tag gen) s = .next { s with out := s.out ++ [.cxl k tag true (List.replicate 64 0xFF)] }) ∧
      (exec (.cxlMemwr (144 + k) off d tag gen) s = .next { s with out := s.out ++ [.cxl k tag false []] }) ∧
      (∀ e, exec (.cxlMemwrptl (144 + k) off d e tag gen) s = .next { s with out := s.out ++ [.cxl k tag false []] })) ∧
    (q.ideActive = false → ∀ r, exec (.cxlMemrd (144 + k) off r tag gen) s = .next s) ∧
    (∀ b, (∀ x ∈ q.snoops, x.tag ≠ tag) → exec (.cxlBirsp (144 + k) b tag off) s = .next s) ∧
    (∀ b x, q.snoops = [x] → x.tag = tag → lineKey x.gfa = lineKey (flexWin s k + off) → ∃ u p, exec (.cxlBirsp (144 + k) b tag off) s = .next (pump (ingress u (144 + k) p)) ∧
      (∃ q', flexPort u k = some q' ∧ q'.snoops = []) ∧ p.opcode = (if x.written then 0x7B else if b then 0x79 else 0x78) ∧ p.dst = x.home ∧ p.tag = tag ∧
      p.src = flexAgent s k ∧ p.room = x.room ∧ p.epoch = x.epoch ∧ p.wcls = x.wcls ∧ u.pool = s.pool) ∧
    (flexDevice s k = true → Answers s (.biEnable (144 + k)) fun t => t = { s with fab := { s.fab with flex := t.fab.flex } } ∧
      flexPort t k = some { q with biEnable := true }) ∧
    (∀ key act, exec (.cxlIdeKm (144 + k) false key act) s = .next s) ∧
    (∀ key, (flexDevice s k = true → Answers s (.cxlIdeKm (144 + k) true key false) fun t => t = { s with fab := { s.fab with flex := t.fab.flex } } ∧
        flexPort t k = some { q with secured := true, keys := q.keys ++ [key] }) ∧
      (flexDevice s k = false → Answers s (.cxlIdeKm (144 + k) true key false) fun t => t.out = s.out ++ [.event 11 (144 + k)] ∧
        t.keys = { s.keys with draws := s.keys.draws + 1 } ∧ ∃ own, flexPort t k = some { q with secured := true, keys := q.keys ++ [own] }) ∧
      (q.keys = [] → exec (.cxlIdeKm (144 + k) true key true) s = .next s) ∧
      (q.keys ≠ [] → s.fab.unrouted = [] → ∃ u, exec (.cxlIdeKm (144 + k) true key true) s = .next (pump u) ∧ u.pool = s.pool ∧
        flexPort u k = some { q with ideActive := true, backoff := 10 })) ∧
    (q.ideActive = false → (s.time.now < q.linkUpAt + 100000000 → exec (.ideTimeout (144 + k)) s = .next s) ∧
      (q.linkUpAt + 100000000 ≤ s.time.now → Answers s (.ideTimeout (144 + k)) fun t => t.pool = s.pool ∧ t.keys.secFaults = s.keys.secFaults + 1 ∧
        ∃ q', flexPort t k = some q' ∧ q'.up = false ∧ q'.retryAt = some (s.time.now + q.backoff * 1000000)))

/-- R394 to R396, R411 to R413: management. Once firmware runs, each SPDM request is queued and answered in its transport, challenges and
measurements signed by the alias key; above 256 in the queue it is Busy. SET_CAP sets the controller's cap as POWER_CAP sets the
switch's; status, acknowledgement and the events that wait go back as the command asks; the port for tests takes restricted
instructions in test-hold only. The model's own choices in it: log entries 122 and 123. -/
def Obligations.ManagementAnswers : Prop :=
  ∀ (s : State) (q : SpdmReq) (inst : Byte), firmwareRuns s = true →
    (∀ k i, (k, i) ∈ [(SpdmKind.getVersion, Instr.getVersion q), (.getCapabilities, .getCapabilities q), (.negotiateAlgorithms, .negotiateAlgorithms q),
        (.getDigests, .getDigests q), (.getCertificate, .getCertificate q), (.challenge, .challenge q), (.getMeasurements, .getMeasurements q)] →
      q.transport = 0 ∨ q.transport = 1 ∧ s.mgmt.link = true →
      (spdmQueue s < 256 → Answers s i fun t => t = { s with mgmt := t.mgmt, out := t.out } ∧
        t.out = s.out ++ [.spdm q.transport k (spdmBody s k q.nonce q.slot).2 (spdmBody s k q.nonce q.slot).1] ∧
        t.mgmt = { s.mgmt with spdmFree := t.mgmt.spdmFree, signed := t.mgmt.signed } ∧ t.mgmt.spdmFree = max s.mgmt.spdmFree s.time.now + 50000 ∧
        (q.slot = 0 → (t.mgmt.signed = s.mgmt.signed + 1 ↔ k = .challenge ∨ k = .getMeasurements))) ∧
      (256 ≤ spdmQueue s → exec i s = .next { s with out := s.out ++ [.spdm q.transport k false spdmBusy] })) ∧
    (∀ src nonce, isRunning s = true → s.fab.inbox = [] → spdmQueue s < 256 → Answers s (.attReq src [.getVersion] nonce) fun t =>
      (∃ p : Packet, t.fab.outbox = s.fab.outbox ++ [p] ∧ p.opcode = 0xC2 ∧ p.dst = src ∧ p.data = leBytes 2 2 ++ (spdmBody s .getVersion nonce 0).1) ∧
      t.pool = s.pool ∧ t.maps = s.maps) ∧
    (∀ cap, exec (.setCap inst cap) s = .next { s with
      innk := { s.innk with capBmc := clampCap s cap }
      out := s.out ++ [.mctp 0x01 inst 0x00 (leBytes 2 (clampCap s cap) ++
        leBytes 2 (effectiveCap { s with innk := { s.innk with capBmc := clampCap s cap } } / 1000))] }) ∧
    (exec (.getStatus inst) s = .next { s with out := s.out ++ [.mctp 0x02 inst 0x00 (statusFields s)] }) ∧
    (∀ n, exec (.eventAck inst n) s = .next { s with
      mgmt := { s.mgmt with events := s.mgmt.events.filter fun r => seqBefore n r.serial }
      out := s.out ++ [.mctp 0x03 inst 0x00 []] }) ∧
    (exec .eventResend s = .next { s with out := s.out ++ s.mgmt.events.map fun r => .mctp 0x10 0 0 (leBytes 64 (faultBits s r)) }) ∧
    (∀ op, s.boot.power ≠ .testHold → s.boot.power ≠ .off → exec (.tapInstruction op) s = .next { s with
      boot := { s.boot with tap := if op = .bypass ∨ op = .idcode ∨ op = .samplePreload then op else .bypass } }) ∧
    (∀ op (u : State), u.boot.power = .testHold → exec (.tapInstruction op) u = .next { u with boot := { u.boot with tap := op } })

/-- R415, R418, R419, R446 and R447: from power to an image. A rising edge starts a switch that is off, and no other: with BOOT_HOLD it
stays in test-hold; the image of the first slot that passes runs and is measured; with none the boot mailbox waits for one, takes
writes to its window and nothing else, checks it on `go`, and
after 10 s gives way to test-hold. A core unit that fails its self-test fails the switch.
The model's own choices in it: log entries 104, 105 and 109. -/
def Obligations.BootFindsAnImage : Prop :=
  ∀ (s : State) (env : ColdEnv) (m : MirrorImage) (o n : Nat) (d : List Byte),
    (s.boot.power ≠ .off → exec (.coldStart env m) s = .next s) ∧
    (s.boot.power = .off →
      (env.bootHoldLow = true → Answers s (.coldStart env m) fun t => t.boot.power = .testHold ∧ t.boot.kind = 1 ∧ t.dir = {} ∧ t.engine = {} ∧ t.regs = {} ∧
        t.hlth = {} ∧ t.boot.flash0 = s.boot.flash0 ∧ t.boot.flash1 = s.boot.flash1 ∧ t.fuses = s.fuses) ∧
      (∀ c i, env.bootHoldLow = false → env.failedUnits = [(c, i)] → unitCount c = 0 → Answers s (.coldStart env m) fun t => t.boot.power = .failed ∧
        t.boot.stage = 4 ∧ t.hlth.state = .failed ∧ t.hlth.replace = true ∧ t.fuses = s.fuses) ∧
      (env.bootHoldLow = false → env.failedUnits = [] →
        (∀ c, pickImage s.fuses (bootOrder s.boot) 0 = (none, c) → Answers s (.coldStart env m) fun t => t.boot.power = .imageWait ∧ t.boot.mboxState = 1 ∧
          t.boot.check = c ∧ t.dir = {} ∧ t.fuses = s.fuses) ∧
        (∀ src l c, pickImage s.fuses (bootOrder s.boot) 0 = (some (src, l), c) → s.boot.setupRec = none → Answers s (.coldStart env m) fun t =>
          t.boot.power = .setUp ∧ t.boot.stage = 6 ∧ t.boot.source = src ∧ t.boot.check = c ∧ t.fuses = fuseRevoked s.fuses l ∧ t.boot.measure.m2 = Config.sha3 l ∧
          t.boot.measure.svn = leAt l 6 1 ∧ t.dir = {} ∧ t.regs = {} ∧ (∀ y ∈ t.maps.tiles, y.res.tier = 0 → y.lost = true) ∧ t.pool.mem.length ≤ s.pool.mem.length))) ∧
    (s.boot.power ≠ .imageWait → exec .bootTimeout s = .next s) ∧
    (s.boot.power = .imageWait → exec .bootTimeout s = .next { s with boot := { s.boot with power := .testHold, mboxState := 0, mboxGo := false } }) ∧
    (bar0Open s = true → exec (.bootImageWrite o d) s = .next { s with boot := { s.boot with mboxIgnored := s.boot.mboxIgnored + 1 } } ∧
      exec (.bootImageGo n) s = .next { s with boot := { s.boot with mboxIgnored := s.boot.mboxIgnored + 1 } }) ∧
    (takesImage s = true → o % 8 = 0 → d.length % 8 = 0 → o + d.length ≤ 16777216 → Answers s (.bootImageWrite o d) fun t =>
      t = { s with boot := { s.boot with mboxImage := t.boot.mboxImage } } ∧
      (∀ i < d.length, (t.boot.mboxImage.find? fun c => c.1 == o + i) = some (o + i, d.getD i 0)) ∧
      ∀ x, x < o ∨ o + d.length ≤ x → (t.boot.mboxImage.find? fun c => c.1 == x) = s.boot.mboxImage.find? fun c => c.1 == x) ∧
    (takesImage s = true → o % 8 ≠ 0 ∨ d.length % 8 ≠ 0 → exec (.bootImageWrite o d) s = .next { s with regs := { s.regs with badIgnored := s.regs.badIgnored + 1 } }) ∧
    (takesImage s = true → exec (.bootImageGo n) s = .next { s with boot := { s.boot with
      mboxGo := true, mboxState := 2, mboxLen := clampNat 8193 8396800 n } }) ∧
    (s.boot.power = .imageWait → s.boot.mboxState = 2 →
      (imageCheck s.fuses (windowImage s) ≠ 0 → exec (.bootCheckDone m) s = .next { s with boot := { s.boot with
        mboxState := 3, mboxGo := false, mboxCheck := imageCheck s.fuses (windowImage s) } }) ∧
      (imageCheck s.fuses (windowImage s) = 0 → s.boot.kind ≠ 2 → s.boot.setupRec = none → Answers s (.bootCheckDone m) fun t => t.boot.power = .setUp ∧
        t.boot.stage = 6 ∧ t.boot.source = 2 ∧ t.boot.measure.m2 = Config.sha3 (windowImage s) ∧ t.pool = s.pool ∧ t.maps = s.maps ∧ t.dir = s.dir ∧ t.regs = s.regs))

/-- R339, R415, R424, R426, R428 and Table 18-5: what stops the switch, and what a reset keeps. Without power, or with a rail that fails,
every lane is down. A warm reset keeps tier 0, the retired units and the flash, and clears the engines and the ledger; without the record of
its set-up it waits for the host with a security fault. A write to CTL.RESET without the confirmation, or of room 0x00, is counted and
ignored; a room is reset when its work is done. The model's own choices in it: log entries 103, 105, 106 and 107. -/
def Obligations.ResetsKeepWhatTheyMust : Prop :=
  ∀ (s : State) (m : MirrorImage) (v : Word),
    (Answers s .powerLoss fun t => t.boot = { s.boot with power := .off } ∧ (∀ q ∈ t.fab.ports, q.up = false) ∧ (∀ q ∈ t.fab.brg, q.up = false) ∧
      (∀ q ∈ t.fab.flex, q.up = false) ∧ t.pool = s.pool ∧ t.maps = s.maps ∧ t.out = s.out) ∧
    (s.boot.power = .off → exec .railFault s = .next s) ∧
    (s.boot.power ≠ .off → Answers s .railFault fun t => t.boot.power = .off ∧ t.hlth.state = .failed ∧ t.hlth.replace = true ∧ t.out = s.out ++ [.pin 1 true] ∧
      t.pool = s.pool ∧ ∀ q ∈ t.fab.ports, q.up = false) ∧
    (∀ i cause, canWarm s = true → (i = .sysRstN m ∧ cause = 1 ∨ i = .warmReset v m ∧ cause = 2 ∧ bar0Open s = true ∧ resetKind v = 1 ∧ resetConfirmed v = true) →
      (let kept (t : State) : Prop := t.pool = s.pool ∧ t.engine = {} ∧ t.ledger.entries = [] ∧ t.ledger.rings = [] ∧ t.sync = {} ∧
         t.maps.exts = s.maps.exts.map (fun x => { x with reqs := [] }) ∧ t.hlth.retired = s.hlth.retired ∧ t.boot.flash0 = s.boot.flash0 ∧
         t.boot.flash1 = s.boot.flash1 ∧ t.boot.kind = 2 ∧ t.boot.cause = cause ∧ t.regs = { s.regs with rwl := [], locked := false, autolock := false }
       (∀ c, pickImage s.fuses (bootOrder s.boot) 0 = (none, c) → Answers s i fun t => kept t ∧ t.boot.power = .imageWait ∧ t.hlth.log = s.hlth.log) ∧
       (∀ src l c, pickImage s.fuses (bootOrder s.boot) 0 = (some (src, l), c) → s.boot.setupRec = none → Answers s i fun t => kept t ∧ t.boot.power = .setUp ∧
         t.boot.stage = 6 ∧ t.keys.secFaults = 1 ∧ t.hlth.serial = s.hlth.serial + 1))) ∧
    (canWarm s = false → exec (.sysRstN m) s = .next s) ∧
    (bar0Open s = true → resetKind v ≠ 1 ∨ resetConfirmed v = false ∨ canWarm s = false → exec (.warmReset v m) s = .next { s with boot := { s.boot with rstIgn := s.boot.rstIgn + 1 } }) ∧
    (bar0Open s = true → resetTarget v = 0 ∨ resetConfirmed v = false ∨ resetTarget v ∈ s.boot.roomResets →
      exec (.roomReset v) s = .next { s with boot := { s.boot with rstIgn := s.boot.rstIgn + 1 } }) ∧
    (isRunning s = true → resetKind v = 2 → resetConfirmed v = true → resetTarget v ≠ 0 → s.boot.roomResets = [] → (∀ r ∈ s.ledger.rings, r.room ≠ resetTarget v) →
      (roomWork s (resetTarget v) ≠ [] → exec (.roomReset v) s = .next { s with boot := { s.boot with roomResets := [resetTarget v] } }) ∧
      (roomWork s (resetTarget v) = [] → (∀ y ∈ s.maps.handles, y.room ≠ resetTarget v) → (∀ y ∈ s.engine.caravans, y.room ≠ resetTarget v) → Answers s (.roomReset v) fun t =>
        t.boot = { s.boot with roomRst := (resetTarget v).toNat } ∧ t.coll.ctxs = s.coll.ctxs.filter (fun c => c.room != resetTarget v) ∧
        t.filt.automata = s.filt.automata.filter (fun a => a.room != resetTarget v) ∧ t.maps = s.maps ∧ t.pool = s.pool))

/-- R400, R420, R430, R431, R433 and R448: registers and functions. An RWL register takes the nearest legal value until the lock, and none
after it; a new window base of a flex port holds the port's length to the range from there; a write of another size or place is ignored and counted. At the lock the switch runs and its set-up is recorded. A mailbox
answers its request, one at a time. While the management link is down records of functions wait; they are written in order when it is
up. A function level reset disables the function's rings and takes over their work.
The model's own choices in it: log entries 104, 108, 110 and 111. -/
def Obligations.RegistersLockAndFunctions : Prop :=
  ∀ (s : State) (o n : Nat) (v : Word) (m : MirrorImage), bar0Open s = true →
    (n ≠ 8 ∨ o % 8 ≠ 0 → exec (.registerWrite o n v) s = .next { s with regs := { s.regs with badIgnored := s.regs.badIgnored + 1 } }) ∧
    (o % 8 = 0 → o ≠ ctlBase → o ≠ ctlBase + 8 → (rwlReset s.fuses.a20 o).isSome = true →
      (s.regs.locked = true → exec (.registerWrite o 8 v) s = .next { s with regs := { s.regs with rwlIgnored := s.regs.rwlIgnored + 1 } }) ∧
      (s.regs.locked = false → Answers s (.registerWrite o 8 v) fun t => t = { s with regs := { s.regs with rwl := t.regs.rwl } } ∧ rwl t o = legalRwl s o v ∧
        (inArr o (portBase + 0xA80) 8 16 = false → ∀ o', o' ≠ o → rwl t o' = rwl s o') ∧
        (inArr o (portBase + 0xA80) 8 16 = true → (∀ o', o' ≠ o → o' ≠ o + 0x80 → rwl t o' = rwl s o') ∧
          ∃ u, rwl u o = legalRwl s o v ∧ (∀ o', o' ≠ o → rwl u o' = rwl s o') ∧ rwl t (o + 0x80) = legalRwl u (o + 0x80) (rwl s (o + 0x80))))) ∧
    (o % 8 = 0 → o < mboxBase → o ≠ ctlBase + 8 → rwlReset s.fuses.a20 o = none → (readReg s o).isSome = true → exec (.registerWrite o 8 v) s = .next s) ∧
    (o % 8 = 0 → o < mboxBase → o ≠ ctlBase + 8 → readReg s o = none → exec (.registerWrite o 8 v) s = .next { s with regs := { s.regs with badIgnored := s.regs.badIgnored + 1 } }) ∧
    (∀ a, s.boot.power ≠ .setUp → exec (.setUpLock a n m) s = .next { s with regs := { s.regs with rwlIgnored := s.regs.rwlIgnored + 1 } }) ∧
    (∀ a, s.boot.power = .setUp → m.reached = false → m.witness = none → ∃ u, exec (.setUpLock a n m) s = .next (settleAll (pump u)) ∧ u.boot.power = .running ∧
      u.regs.locked = true ∧ u.regs.autolock = a ∧ u.mgmt.numVfs = n ∧ u.pool = s.pool ∧ u.ledger.mirrorRead = false ∧ u.boot.setupRec ≠ none ∧
      u.boot.measure.m2 = s.boot.measure.m2) ∧
    (64 ≤ n → exec (.mailboxRequest n o) s = .next s) ∧
    (n < 64 → (boxOf s n).req = true → exec (.mailboxRequest n o) s = .next { s with mgmt := { s.mgmt with boxIgnored := s.mgmt.boxIgnored + 1 } }) ∧
    (n < 64 → (boxOf s n).req = false → Answers s (.mailboxRequest n o) fun t => t = { s with mgmt := t.mgmt } ∧ (boxOf t n).f = n ∧
      (boxOf t n).reqLen = clampNat 5 1024 o ∧ (boxOf t n).request = (boxOf s n).request ∧
      (s.mgmt.flr.contains n = true → (boxOf t n).req = true ∧ (boxOf t n).rsp = false) ∧
      (s.mgmt.flr.contains n = false → (boxOf t n).req = false ∧ (boxOf t n).rsp = true ∧
        (readByte (boxOf s n).request 0 ≠ 0x02 → (boxOf t n).resp = [readByte (boxOf s n).request 0, readByte (boxOf s n).request 1, 0x01]))) ∧
    (exec .mgmtLinkDown s = .next { s with mgmt := { s.mgmt with link := false } } ∧ exec .mgmtPerstN s = .next { s with mgmt := { s.mgmt with link := false } }) ∧
    (exec (.mgmtLinkUp n) s = .next { s with
      mgmt := { s.mgmt with link := true, waitRecs := [], numVfs := n }
      out := s.out ++ s.mgmt.waitRecs.map fun x => .hostWrite x.1 x.2.1 (leBytes 32 x.2.2.toNat) }) ∧
    (isRunning s = true → n = 0 ∨ 64 ≤ n → exec (.vfFlr n) s = .next s) ∧
    (isRunning s = true → 1 ≤ n → n < 64 → ∃ u, exec (.vfFlr n) s = .next (settleDisables (settleFlr u)) ∧ n ∈ u.mgmt.flr ∧ (MirrorStands s → u.pool = s.pool ∧ u.maps = s.maps) ∧
      (∀ r ∈ u.ledger.rings, r.fabric = false → r.fn = n → r.enabled = false) ∧
      u.ledger.rings.map (fun r => (r.id, r.h, r.nw)) = s.ledger.rings.map (fun r => (r.id, r.h, r.nw)) ∧
      u.ledger.entries.map (fun x => (x.n, x.result, x.adopted)) = s.ledger.entries.map fun x =>
        (x.n, x.result, x.adopted || s.ledger.rings.any fun r => !r.fabric && r.fn == n && r.id == x.ring))

/-- One step takes the command at the front of the queue and runs it on the state with the rest of the queue. (The queue is the
model's own, log entry 1; no rule is cited for it.) -/
def Obligations.StepRunsTheFrontCommand : Prop :=
  ∀ (s : State) (c : Instr) (l : List Instr), s.pending = c :: l → step s = exec c { s with pending := l }

/-- With no command waiting a step is a tick of the clock (log entry 2): fabric time goes on by 1 ns, by 2 or 0 ns where an offset is slewed
away, and the islands' copies have seen it (R13); a running switch then routes the oldest packet of its own, and each port sends what it
can; without power nothing happens. -/
def Obligations.IdleStepIsATick : Prop :=
  ∀ (s : State), s.pending = [] → (s.boot.power = .off → step s = .next s) ∧
    (s.boot.power ≠ .off → isRunning s = false → s.time.ppsHigh = none →
      step s = .next (advanceTime { s with time := { s.time with copy := max s.time.copy s.time.now } })) ∧
    (isRunning s = true → ∃ u t, step s = .next t ∧ t = settleOwn (bridgeAll (egressAll (routeHead (goAgain u)))) ∧ u.fab = s.fab ∧
      (s.time.ppsHigh = none → u = advanceTime { s with time := { s.time with copy := max s.time.copy s.time.now } }) ∧
      (∀ p l, u.fab.outbox = p :: l → routeHead u = route { u with fab := { u.fab with outbox := l } } p)) ∧
    (s.time.phase < 4999 → (advanceTime s).time.now = (s.time.now + 1) % 2 ^ 64) ∧
    (4999 ≤ s.time.phase → (advanceTime s).time.phase = 0 ∧
      (0 < s.time.slew → (advanceTime s).time.now = (s.time.now + 2) % 2 ^ 64 ∧ (advanceTime s).time.slew = s.time.slew - 1) ∧
      (s.time.slew < 0 → (advanceTime s).time.now = s.time.now ∧ (advanceTime s).time.slew = s.time.slew + 1) ∧
      (s.time.slew = 0 → (advanceTime s).time.now = (s.time.now + 1) % 2 ^ 64))

/-- After reset every RWL register reads as its reset value, no line is cached, no descriptor is held, no link is up, the switch is
Healthy, and its memory lists nothing, which is its canonical form. The model's own choices in it: log entries 3, 4 and 5. -/
def Obligations.ResetState : Prop :=
  (∀ o v, rwlReset State.reset.fuses.a20 o = some v → readReg State.reset o = some v) ∧
    readReg State.reset dirBase = some 6 ∧ readReg State.reset ledgBase = some 0x0002000000000000 ∧ readReg State.reset portBase = some 0x0808 ∧
    State.reset.dir.entries = [] ∧ State.reset.ledger.entries = [] ∧ State.reset.fab.ports = [] ∧ State.reset.hlth.state = .healthy ∧ State.reset.hlth.retired = [] ∧
    State.reset.pending = [] ∧ Memory.wf State.reset.pool.mem = true ∧ State.reset.pool.marks = []

/-- Every command of the home keeps the pool in its canonical form: addresses rise strictly, and no byte is listed that reads as an
unlisted one (log entry 3). -/
def Obligations.HomeKeepsMemoryCanonical : Prop :=
  ∀ (s t : State) (i : Instr), Memory.wf s.pool.mem = true → exec i s = .next t →
    ((∃ r, (∃ v, i = .ld r v) ∨ (∃ h, i = .ldSnap r h) ∨ i = .rdS r ∨ i = .rdU r ∨ i = .upg r ∨ i = .evc r ∨ (∃ d, i = .st r d) ∨ (∃ d, i = .wb r d) ∨
      (∃ k a, i = .amo r k a) ∨ ∃ c w, i = .cas r c w) ∨
     (∃ a, i = .srNone a ∨ i = .srClean a ∨ i = .srWb a ∨ ∃ d, i = .srData a d) ∨ (∃ a, i = .leaseExpiry a) ∨ (∃ g a, i = .snoopLossTimer g a) ∨
     (∃ g, i = .promotion g) ∨ (∃ g, i = .tileRecall g) ∨ ∃ n, i = .cowCopyDone n) → Memory.wf t.pool.mem = true
end

