-- ==== Sys2Proof/Laws/State.lean ====
section
/-!
SUPPORT. Laws/State.lean: for each update of one part of the state that the commands share, one lemma for each part that it
leaves alone, so that no proof unfolds a record update.
-/

namespace Sys2Proof.Machine

@[simp] theorem updCore_pending (s : State) (c : CoreId) (f : Core → Core) : (updCore s c f).pending = s.pending := rfl
@[simp] theorem updCore_freeCount (s : State) (c : CoreId) (f : Core → Core) : (updCore s c f).freeCount = s.freeCount := rfl
@[simp] theorem updCore_time (s : State) (c : CoreId) (f : Core → Core) : (updCore s c f).time = s.time := rfl
@[simp] theorem updCore_own (s : State) (c : CoreId) (f : Core → Core) : (updCore s c f).own = s.own := rfl
@[simp] theorem updCore_fuses (s : State) (c : CoreId) (f : Core → Core) : (updCore s c f).fuses = s.fuses := rfl
@[simp] theorem updCore_boot (s : State) (c : CoreId) (f : Core → Core) : (updCore s c f).boot = s.boot := rfl
@[simp] theorem updCore_regs (s : State) (c : CoreId) (f : Core → Core) : (updCore s c f).regs = s.regs := rfl
@[simp] theorem updCore_fab (s : State) (c : CoreId) (f : Core → Core) : (updCore s c f).fab = s.fab := rfl
@[simp] theorem updCore_dir (s : State) (c : CoreId) (f : Core → Core) : (updCore s c f).dir = s.dir := rfl
@[simp] theorem updCore_pool (s : State) (c : CoreId) (f : Core → Core) : (updCore s c f).pool = s.pool := rfl
@[simp] theorem updCore_maps (s : State) (c : CoreId) (f : Core → Core) : (updCore s c f).maps = s.maps := rfl
@[simp] theorem updCore_sync (s : State) (c : CoreId) (f : Core → Core) : (updCore s c f).sync = s.sync := rfl
@[simp] theorem updCore_rooms (s : State) (c : CoreId) (f : Core → Core) : (updCore s c f).rooms = s.rooms := rfl
@[simp] theorem updCore_ledger (s : State) (c : CoreId) (f : Core → Core) : (updCore s c f).ledger = s.ledger := rfl
@[simp] theorem updCore_coll (s : State) (c : CoreId) (f : Core → Core) : (updCore s c f).coll = s.coll := rfl
@[simp] theorem updCore_filt (s : State) (c : CoreId) (f : Core → Core) : (updCore s c f).filt = s.filt := rfl
@[simp] theorem updCore_innk (s : State) (c : CoreId) (f : Core → Core) : (updCore s c f).innk = s.innk := rfl
@[simp] theorem updCore_hlth (s : State) (c : CoreId) (f : Core → Core) : (updCore s c f).hlth = s.hlth := rfl
@[simp] theorem updCore_twin (s : State) (c : CoreId) (f : Core → Core) : (updCore s c f).twin = s.twin := rfl
@[simp] theorem updCore_keys (s : State) (c : CoreId) (f : Core → Core) : (updCore s c f).keys = s.keys := rfl
@[simp] theorem updCore_mgmt (s : State) (c : CoreId) (f : Core → Core) : (updCore s c f).mgmt = s.mgmt := rfl
@[simp] theorem updCore_out (s : State) (c : CoreId) (f : Core → Core) : (updCore s c f).out = s.out := rfl

@[simp] theorem updCaravan_pending (s : State) (c : Nat) (f : Caravan → Caravan) : (updCaravan s c f).pending = s.pending := rfl
@[simp] theorem updCaravan_freeCount (s : State) (c : Nat) (f : Caravan → Caravan) : (updCaravan s c f).freeCount = s.freeCount := rfl
@[simp] theorem updCaravan_time (s : State) (c : Nat) (f : Caravan → Caravan) : (updCaravan s c f).time = s.time := rfl
@[simp] theorem updCaravan_own (s : State) (c : Nat) (f : Caravan → Caravan) : (updCaravan s c f).own = s.own := rfl
@[simp] theorem updCaravan_fuses (s : State) (c : Nat) (f : Caravan → Caravan) : (updCaravan s c f).fuses = s.fuses := rfl
@[simp] theorem updCaravan_boot (s : State) (c : Nat) (f : Caravan → Caravan) : (updCaravan s c f).boot = s.boot := rfl
@[simp] theorem updCaravan_regs (s : State) (c : Nat) (f : Caravan → Caravan) : (updCaravan s c f).regs = s.regs := rfl
@[simp] theorem updCaravan_fab (s : State) (c : Nat) (f : Caravan → Caravan) : (updCaravan s c f).fab = s.fab := rfl
@[simp] theorem updCaravan_dir (s : State) (c : Nat) (f : Caravan → Caravan) : (updCaravan s c f).dir = s.dir := rfl
@[simp] theorem updCaravan_pool (s : State) (c : Nat) (f : Caravan → Caravan) : (updCaravan s c f).pool = s.pool := rfl
@[simp] theorem updCaravan_maps (s : State) (c : Nat) (f : Caravan → Caravan) : (updCaravan s c f).maps = s.maps := rfl
@[simp] theorem updCaravan_sync (s : State) (c : Nat) (f : Caravan → Caravan) : (updCaravan s c f).sync = s.sync := rfl
@[simp] theorem updCaravan_rooms (s : State) (c : Nat) (f : Caravan → Caravan) : (updCaravan s c f).rooms = s.rooms := rfl
@[simp] theorem updCaravan_ledger (s : State) (c : Nat) (f : Caravan → Caravan) : (updCaravan s c f).ledger = s.ledger := rfl
@[simp] theorem updCaravan_coll (s : State) (c : Nat) (f : Caravan → Caravan) : (updCaravan s c f).coll = s.coll := rfl
@[simp] theorem updCaravan_filt (s : State) (c : Nat) (f : Caravan → Caravan) : (updCaravan s c f).filt = s.filt := rfl
@[simp] theorem updCaravan_innk (s : State) (c : Nat) (f : Caravan → Caravan) : (updCaravan s c f).innk = s.innk := rfl
@[simp] theorem updCaravan_hlth (s : State) (c : Nat) (f : Caravan → Caravan) : (updCaravan s c f).hlth = s.hlth := rfl
@[simp] theorem updCaravan_twin (s : State) (c : Nat) (f : Caravan → Caravan) : (updCaravan s c f).twin = s.twin := rfl
@[simp] theorem updCaravan_keys (s : State) (c : Nat) (f : Caravan → Caravan) : (updCaravan s c f).keys = s.keys := rfl
@[simp] theorem updCaravan_mgmt (s : State) (c : Nat) (f : Caravan → Caravan) : (updCaravan s c f).mgmt = s.mgmt := rfl
@[simp] theorem updCaravan_out (s : State) (c : Nat) (f : Caravan → Caravan) : (updCaravan s c f).out = s.out := rfl

@[simp] theorem updRoom_pending (s : State) (r : RoomId) (f : Room → Room) : (updRoom s r f).pending = s.pending := rfl
@[simp] theorem updRoom_freeCount (s : State) (r : RoomId) (f : Room → Room) : (updRoom s r f).freeCount = s.freeCount := rfl
@[simp] theorem updRoom_time (s : State) (r : RoomId) (f : Room → Room) : (updRoom s r f).time = s.time := rfl
@[simp] theorem updRoom_own (s : State) (r : RoomId) (f : Room → Room) : (updRoom s r f).own = s.own := rfl
@[simp] theorem updRoom_fuses (s : State) (r : RoomId) (f : Room → Room) : (updRoom s r f).fuses = s.fuses := rfl
@[simp] theorem updRoom_boot (s : State) (r : RoomId) (f : Room → Room) : (updRoom s r f).boot = s.boot := rfl
@[simp] theorem updRoom_regs (s : State) (r : RoomId) (f : Room → Room) : (updRoom s r f).regs = s.regs := rfl
@[simp] theorem updRoom_fab (s : State) (r : RoomId) (f : Room → Room) : (updRoom s r f).fab = s.fab := rfl
@[simp] theorem updRoom_dir (s : State) (r : RoomId) (f : Room → Room) : (updRoom s r f).dir = s.dir := rfl
@[simp] theorem updRoom_pool (s : State) (r : RoomId) (f : Room → Room) : (updRoom s r f).pool = s.pool := rfl
@[simp] theorem updRoom_maps (s : State) (r : RoomId) (f : Room → Room) : (updRoom s r f).maps = s.maps := rfl
@[simp] theorem updRoom_sync (s : State) (r : RoomId) (f : Room → Room) : (updRoom s r f).sync = s.sync := rfl
@[simp] theorem updRoom_ledger (s : State) (r : RoomId) (f : Room → Room) : (updRoom s r f).ledger = s.ledger := rfl
@[simp] theorem updRoom_engine (s : State) (r : RoomId) (f : Room → Room) : (updRoom s r f).engine = s.engine := rfl
@[simp] theorem updRoom_coll (s : State) (r : RoomId) (f : Room → Room) : (updRoom s r f).coll = s.coll := rfl
@[simp] theorem updRoom_filt (s : State) (r : RoomId) (f : Room → Room) : (updRoom s r f).filt = s.filt := rfl
@[simp] theorem updRoom_innk (s : State) (r : RoomId) (f : Room → Room) : (updRoom s r f).innk = s.innk := rfl
@[simp] theorem updRoom_hlth (s : State) (r : RoomId) (f : Room → Room) : (updRoom s r f).hlth = s.hlth := rfl
@[simp] theorem updRoom_twin (s : State) (r : RoomId) (f : Room → Room) : (updRoom s r f).twin = s.twin := rfl
@[simp] theorem updRoom_keys (s : State) (r : RoomId) (f : Room → Room) : (updRoom s r f).keys = s.keys := rfl
@[simp] theorem updRoom_mgmt (s : State) (r : RoomId) (f : Room → Room) : (updRoom s r f).mgmt = s.mgmt := rfl
@[simp] theorem updRoom_out (s : State) (r : RoomId) (f : Room → Room) : (updRoom s r f).out = s.out := rfl

@[simp] theorem updExtent_pending (s : State) (k : Nat) (f : Extent → Extent) : (updExtent s k f).pending = s.pending := rfl
@[simp] theorem updExtent_freeCount (s : State) (k : Nat) (f : Extent → Extent) : (updExtent s k f).freeCount = s.freeCount := rfl
@[simp] theorem updExtent_time (s : State) (k : Nat) (f : Extent → Extent) : (updExtent s k f).time = s.time := rfl
@[simp] theorem updExtent_own (s : State) (k : Nat) (f : Extent → Extent) : (updExtent s k f).own = s.own := rfl
@[simp] theorem updExtent_fuses (s : State) (k : Nat) (f : Extent → Extent) : (updExtent s k f).fuses = s.fuses := rfl
@[simp] theorem updExtent_boot (s : State) (k : Nat) (f : Extent → Extent) : (updExtent s k f).boot = s.boot := rfl
@[simp] theorem updExtent_regs (s : State) (k : Nat) (f : Extent → Extent) : (updExtent s k f).regs = s.regs := rfl
@[simp] theorem updExtent_fab (s : State) (k : Nat) (f : Extent → Extent) : (updExtent s k f).fab = s.fab := rfl
@[simp] theorem updExtent_dir (s : State) (k : Nat) (f : Extent → Extent) : (updExtent s k f).dir = s.dir := rfl
@[simp] theorem updExtent_pool (s : State) (k : Nat) (f : Extent → Extent) : (updExtent s k f).pool = s.pool := rfl
@[simp] theorem updExtent_sync (s : State) (k : Nat) (f : Extent → Extent) : (updExtent s k f).sync = s.sync := rfl
@[simp] theorem updExtent_rooms (s : State) (k : Nat) (f : Extent → Extent) : (updExtent s k f).rooms = s.rooms := rfl
@[simp] theorem updExtent_ledger (s : State) (k : Nat) (f : Extent → Extent) : (updExtent s k f).ledger = s.ledger := rfl
@[simp] theorem updExtent_engine (s : State) (k : Nat) (f : Extent → Extent) : (updExtent s k f).engine = s.engine := rfl
@[simp] theorem updExtent_coll (s : State) (k : Nat) (f : Extent → Extent) : (updExtent s k f).coll = s.coll := rfl
@[simp] theorem updExtent_filt (s : State) (k : Nat) (f : Extent → Extent) : (updExtent s k f).filt = s.filt := rfl
@[simp] theorem updExtent_innk (s : State) (k : Nat) (f : Extent → Extent) : (updExtent s k f).innk = s.innk := rfl
@[simp] theorem updExtent_hlth (s : State) (k : Nat) (f : Extent → Extent) : (updExtent s k f).hlth = s.hlth := rfl
@[simp] theorem updExtent_twin (s : State) (k : Nat) (f : Extent → Extent) : (updExtent s k f).twin = s.twin := rfl
@[simp] theorem updExtent_keys (s : State) (k : Nat) (f : Extent → Extent) : (updExtent s k f).keys = s.keys := rfl
@[simp] theorem updExtent_mgmt (s : State) (k : Nat) (f : Extent → Extent) : (updExtent s k f).mgmt = s.mgmt := rfl
@[simp] theorem updExtent_out (s : State) (k : Nat) (f : Extent → Extent) : (updExtent s k f).out = s.out := rfl

@[simp] theorem updTile_pending (s : State) (k : Nat) (f : Tile → Tile) : (updTile s k f).pending = s.pending := rfl
@[simp] theorem updTile_freeCount (s : State) (k : Nat) (f : Tile → Tile) : (updTile s k f).freeCount = s.freeCount := rfl
@[simp] theorem updTile_time (s : State) (k : Nat) (f : Tile → Tile) : (updTile s k f).time = s.time := rfl
@[simp] theorem updTile_own (s : State) (k : Nat) (f : Tile → Tile) : (updTile s k f).own = s.own := rfl
@[simp] theorem updTile_fuses (s : State) (k : Nat) (f : Tile → Tile) : (updTile s k f).fuses = s.fuses := rfl
@[simp] theorem updTile_boot (s : State) (k : Nat) (f : Tile → Tile) : (updTile s k f).boot = s.boot := rfl
@[simp] theorem updTile_regs (s : State) (k : Nat) (f : Tile → Tile) : (updTile s k f).regs = s.regs := rfl
@[simp] theorem updTile_fab (s : State) (k : Nat) (f : Tile → Tile) : (updTile s k f).fab = s.fab := rfl
@[simp] theorem updTile_dir (s : State) (k : Nat) (f : Tile → Tile) : (updTile s k f).dir = s.dir := rfl
@[simp] theorem updTile_pool (s : State) (k : Nat) (f : Tile → Tile) : (updTile s k f).pool = s.pool := rfl
@[simp] theorem updTile_sync (s : State) (k : Nat) (f : Tile → Tile) : (updTile s k f).sync = s.sync := rfl
@[simp] theorem updTile_rooms (s : State) (k : Nat) (f : Tile → Tile) : (updTile s k f).rooms = s.rooms := rfl
@[simp] theorem updTile_ledger (s : State) (k : Nat) (f : Tile → Tile) : (updTile s k f).ledger = s.ledger := rfl
@[simp] theorem updTile_engine (s : State) (k : Nat) (f : Tile → Tile) : (updTile s k f).engine = s.engine := rfl
@[simp] theorem updTile_coll (s : State) (k : Nat) (f : Tile → Tile) : (updTile s k f).coll = s.coll := rfl
@[simp] theorem updTile_filt (s : State) (k : Nat) (f : Tile → Tile) : (updTile s k f).filt = s.filt := rfl
@[simp] theorem updTile_innk (s : State) (k : Nat) (f : Tile → Tile) : (updTile s k f).innk = s.innk := rfl
@[simp] theorem updTile_hlth (s : State) (k : Nat) (f : Tile → Tile) : (updTile s k f).hlth = s.hlth := rfl
@[simp] theorem updTile_twin (s : State) (k : Nat) (f : Tile → Tile) : (updTile s k f).twin = s.twin := rfl
@[simp] theorem updTile_keys (s : State) (k : Nat) (f : Tile → Tile) : (updTile s k f).keys = s.keys := rfl
@[simp] theorem updTile_mgmt (s : State) (k : Nat) (f : Tile → Tile) : (updTile s k f).mgmt = s.mgmt := rfl
@[simp] theorem updTile_out (s : State) (k : Nat) (f : Tile → Tile) : (updTile s k f).out = s.out := rfl

@[simp] theorem updStream_pending (s : State) (e : Nat) (f : Stream → Stream) : (updStream s e f).pending = s.pending := rfl
@[simp] theorem updStream_freeCount (s : State) (e : Nat) (f : Stream → Stream) : (updStream s e f).freeCount = s.freeCount := rfl
@[simp] theorem updStream_time (s : State) (e : Nat) (f : Stream → Stream) : (updStream s e f).time = s.time := rfl
@[simp] theorem updStream_own (s : State) (e : Nat) (f : Stream → Stream) : (updStream s e f).own = s.own := rfl
@[simp] theorem updStream_fuses (s : State) (e : Nat) (f : Stream → Stream) : (updStream s e f).fuses = s.fuses := rfl
@[simp] theorem updStream_boot (s : State) (e : Nat) (f : Stream → Stream) : (updStream s e f).boot = s.boot := rfl
@[simp] theorem updStream_regs (s : State) (e : Nat) (f : Stream → Stream) : (updStream s e f).regs = s.regs := rfl
@[simp] theorem updStream_fab (s : State) (e : Nat) (f : Stream → Stream) : (updStream s e f).fab = s.fab := rfl
@[simp] theorem updStream_dir (s : State) (e : Nat) (f : Stream → Stream) : (updStream s e f).dir = s.dir := rfl
@[simp] theorem updStream_pool (s : State) (e : Nat) (f : Stream → Stream) : (updStream s e f).pool = s.pool := rfl
@[simp] theorem updStream_sync (s : State) (e : Nat) (f : Stream → Stream) : (updStream s e f).sync = s.sync := rfl
@[simp] theorem updStream_rooms (s : State) (e : Nat) (f : Stream → Stream) : (updStream s e f).rooms = s.rooms := rfl
@[simp] theorem updStream_ledger (s : State) (e : Nat) (f : Stream → Stream) : (updStream s e f).ledger = s.ledger := rfl
@[simp] theorem updStream_engine (s : State) (e : Nat) (f : Stream → Stream) : (updStream s e f).engine = s.engine := rfl
@[simp] theorem updStream_coll (s : State) (e : Nat) (f : Stream → Stream) : (updStream s e f).coll = s.coll := rfl
@[simp] theorem updStream_filt (s : State) (e : Nat) (f : Stream → Stream) : (updStream s e f).filt = s.filt := rfl
@[simp] theorem updStream_innk (s : State) (e : Nat) (f : Stream → Stream) : (updStream s e f).innk = s.innk := rfl
@[simp] theorem updStream_hlth (s : State) (e : Nat) (f : Stream → Stream) : (updStream s e f).hlth = s.hlth := rfl
@[simp] theorem updStream_twin (s : State) (e : Nat) (f : Stream → Stream) : (updStream s e f).twin = s.twin := rfl
@[simp] theorem updStream_keys (s : State) (e : Nat) (f : Stream → Stream) : (updStream s e f).keys = s.keys := rfl
@[simp] theorem updStream_mgmt (s : State) (e : Nat) (f : Stream → Stream) : (updStream s e f).mgmt = s.mgmt := rfl
@[simp] theorem updStream_out (s : State) (e : Nat) (f : Stream → Stream) : (updStream s e f).out = s.out := rfl

@[simp] theorem updRing_pending (s : State) (r : BitVec 12) (f : Ring → Ring) : (updRing s r f).pending = s.pending := rfl
@[simp] theorem updRing_freeCount (s : State) (r : BitVec 12) (f : Ring → Ring) : (updRing s r f).freeCount = s.freeCount := rfl
@[simp] theorem updRing_time (s : State) (r : BitVec 12) (f : Ring → Ring) : (updRing s r f).time = s.time := rfl
@[simp] theorem updRing_own (s : State) (r : BitVec 12) (f : Ring → Ring) : (updRing s r f).own = s.own := rfl
@[simp] theorem updRing_fuses (s : State) (r : BitVec 12) (f : Ring → Ring) : (updRing s r f).fuses = s.fuses := rfl
@[simp] theorem updRing_boot (s : State) (r : BitVec 12) (f : Ring → Ring) : (updRing s r f).boot = s.boot := rfl
@[simp] theorem updRing_regs (s : State) (r : BitVec 12) (f : Ring → Ring) : (updRing s r f).regs = s.regs := rfl
@[simp] theorem updRing_fab (s : State) (r : BitVec 12) (f : Ring → Ring) : (updRing s r f).fab = s.fab := rfl
@[simp] theorem updRing_dir (s : State) (r : BitVec 12) (f : Ring → Ring) : (updRing s r f).dir = s.dir := rfl
@[simp] theorem updRing_pool (s : State) (r : BitVec 12) (f : Ring → Ring) : (updRing s r f).pool = s.pool := rfl
@[simp] theorem updRing_maps (s : State) (r : BitVec 12) (f : Ring → Ring) : (updRing s r f).maps = s.maps := rfl
@[simp] theorem updRing_sync (s : State) (r : BitVec 12) (f : Ring → Ring) : (updRing s r f).sync = s.sync := rfl
@[simp] theorem updRing_rooms (s : State) (r : BitVec 12) (f : Ring → Ring) : (updRing s r f).rooms = s.rooms := rfl
@[simp] theorem updRing_engine (s : State) (r : BitVec 12) (f : Ring → Ring) : (updRing s r f).engine = s.engine := rfl
@[simp] theorem updRing_coll (s : State) (r : BitVec 12) (f : Ring → Ring) : (updRing s r f).coll = s.coll := rfl
@[simp] theorem updRing_filt (s : State) (r : BitVec 12) (f : Ring → Ring) : (updRing s r f).filt = s.filt := rfl
@[simp] theorem updRing_innk (s : State) (r : BitVec 12) (f : Ring → Ring) : (updRing s r f).innk = s.innk := rfl
@[simp] theorem updRing_hlth (s : State) (r : BitVec 12) (f : Ring → Ring) : (updRing s r f).hlth = s.hlth := rfl
@[simp] theorem updRing_twin (s : State) (r : BitVec 12) (f : Ring → Ring) : (updRing s r f).twin = s.twin := rfl
@[simp] theorem updRing_keys (s : State) (r : BitVec 12) (f : Ring → Ring) : (updRing s r f).keys = s.keys := rfl
@[simp] theorem updRing_mgmt (s : State) (r : BitVec 12) (f : Ring → Ring) : (updRing s r f).mgmt = s.mgmt := rfl
@[simp] theorem updRing_out (s : State) (r : BitVec 12) (f : Ring → Ring) : (updRing s r f).out = s.out := rfl

@[simp] theorem updLedger_pending (s : State) (e : Nat) (f : Entry → Entry) : (updLedger s e f).pending = s.pending := rfl
@[simp] theorem updLedger_freeCount (s : State) (e : Nat) (f : Entry → Entry) : (updLedger s e f).freeCount = s.freeCount := rfl
@[simp] theorem updLedger_time (s : State) (e : Nat) (f : Entry → Entry) : (updLedger s e f).time = s.time := rfl
@[simp] theorem updLedger_own (s : State) (e : Nat) (f : Entry → Entry) : (updLedger s e f).own = s.own := rfl
@[simp] theorem updLedger_fuses (s : State) (e : Nat) (f : Entry → Entry) : (updLedger s e f).fuses = s.fuses := rfl
@[simp] theorem updLedger_boot (s : State) (e : Nat) (f : Entry → Entry) : (updLedger s e f).boot = s.boot := rfl
@[simp] theorem updLedger_regs (s : State) (e : Nat) (f : Entry → Entry) : (updLedger s e f).regs = s.regs := rfl
@[simp] theorem updLedger_fab (s : State) (e : Nat) (f : Entry → Entry) : (updLedger s e f).fab = s.fab := rfl
@[simp] theorem updLedger_dir (s : State) (e : Nat) (f : Entry → Entry) : (updLedger s e f).dir = s.dir := rfl
@[simp] theorem updLedger_pool (s : State) (e : Nat) (f : Entry → Entry) : (updLedger s e f).pool = s.pool := rfl
@[simp] theorem updLedger_maps (s : State) (e : Nat) (f : Entry → Entry) : (updLedger s e f).maps = s.maps := rfl
@[simp] theorem updLedger_sync (s : State) (e : Nat) (f : Entry → Entry) : (updLedger s e f).sync = s.sync := rfl
@[simp] theorem updLedger_rooms (s : State) (e : Nat) (f : Entry → Entry) : (updLedger s e f).rooms = s.rooms := rfl
@[simp] theorem updLedger_engine (s : State) (e : Nat) (f : Entry → Entry) : (updLedger s e f).engine = s.engine := rfl
@[simp] theorem updLedger_coll (s : State) (e : Nat) (f : Entry → Entry) : (updLedger s e f).coll = s.coll := rfl
@[simp] theorem updLedger_filt (s : State) (e : Nat) (f : Entry → Entry) : (updLedger s e f).filt = s.filt := rfl
@[simp] theorem updLedger_innk (s : State) (e : Nat) (f : Entry → Entry) : (updLedger s e f).innk = s.innk := rfl
@[simp] theorem updLedger_hlth (s : State) (e : Nat) (f : Entry → Entry) : (updLedger s e f).hlth = s.hlth := rfl
@[simp] theorem updLedger_twin (s : State) (e : Nat) (f : Entry → Entry) : (updLedger s e f).twin = s.twin := rfl
@[simp] theorem updLedger_keys (s : State) (e : Nat) (f : Entry → Entry) : (updLedger s e f).keys = s.keys := rfl
@[simp] theorem updLedger_mgmt (s : State) (e : Nat) (f : Entry → Entry) : (updLedger s e f).mgmt = s.mgmt := rfl
@[simp] theorem updLedger_out (s : State) (e : Nat) (f : Entry → Entry) : (updLedger s e f).out = s.out := rfl

@[simp] theorem updFab_pending (s : State) (n : Nat) (f : FabPort → FabPort) : (updFab s n f).pending = s.pending := rfl
@[simp] theorem updFab_freeCount (s : State) (n : Nat) (f : FabPort → FabPort) : (updFab s n f).freeCount = s.freeCount := rfl
@[simp] theorem updFab_time (s : State) (n : Nat) (f : FabPort → FabPort) : (updFab s n f).time = s.time := rfl
@[simp] theorem updFab_own (s : State) (n : Nat) (f : FabPort → FabPort) : (updFab s n f).own = s.own := rfl
@[simp] theorem updFab_fuses (s : State) (n : Nat) (f : FabPort → FabPort) : (updFab s n f).fuses = s.fuses := rfl
@[simp] theorem updFab_boot (s : State) (n : Nat) (f : FabPort → FabPort) : (updFab s n f).boot = s.boot := rfl
@[simp] theorem updFab_regs (s : State) (n : Nat) (f : FabPort → FabPort) : (updFab s n f).regs = s.regs := rfl
@[simp] theorem updFab_dir (s : State) (n : Nat) (f : FabPort → FabPort) : (updFab s n f).dir = s.dir := rfl
@[simp] theorem updFab_pool (s : State) (n : Nat) (f : FabPort → FabPort) : (updFab s n f).pool = s.pool := rfl
@[simp] theorem updFab_maps (s : State) (n : Nat) (f : FabPort → FabPort) : (updFab s n f).maps = s.maps := rfl
@[simp] theorem updFab_sync (s : State) (n : Nat) (f : FabPort → FabPort) : (updFab s n f).sync = s.sync := rfl
@[simp] theorem updFab_rooms (s : State) (n : Nat) (f : FabPort → FabPort) : (updFab s n f).rooms = s.rooms := rfl
@[simp] theorem updFab_ledger (s : State) (n : Nat) (f : FabPort → FabPort) : (updFab s n f).ledger = s.ledger := rfl
@[simp] theorem updFab_engine (s : State) (n : Nat) (f : FabPort → FabPort) : (updFab s n f).engine = s.engine := rfl
@[simp] theorem updFab_coll (s : State) (n : Nat) (f : FabPort → FabPort) : (updFab s n f).coll = s.coll := rfl
@[simp] theorem updFab_filt (s : State) (n : Nat) (f : FabPort → FabPort) : (updFab s n f).filt = s.filt := rfl
@[simp] theorem updFab_innk (s : State) (n : Nat) (f : FabPort → FabPort) : (updFab s n f).innk = s.innk := rfl
@[simp] theorem updFab_hlth (s : State) (n : Nat) (f : FabPort → FabPort) : (updFab s n f).hlth = s.hlth := rfl
@[simp] theorem updFab_twin (s : State) (n : Nat) (f : FabPort → FabPort) : (updFab s n f).twin = s.twin := rfl
@[simp] theorem updFab_keys (s : State) (n : Nat) (f : FabPort → FabPort) : (updFab s n f).keys = s.keys := rfl
@[simp] theorem updFab_mgmt (s : State) (n : Nat) (f : FabPort → FabPort) : (updFab s n f).mgmt = s.mgmt := rfl
@[simp] theorem updFab_out (s : State) (n : Nat) (f : FabPort → FabPort) : (updFab s n f).out = s.out := rfl

@[simp] theorem updBrg_pending (s : State) (n : Nat) (f : BrgPort → BrgPort) : (updBrg s n f).pending = s.pending := rfl
@[simp] theorem updBrg_freeCount (s : State) (n : Nat) (f : BrgPort → BrgPort) : (updBrg s n f).freeCount = s.freeCount := rfl
@[simp] theorem updBrg_time (s : State) (n : Nat) (f : BrgPort → BrgPort) : (updBrg s n f).time = s.time := rfl
@[simp] theorem updBrg_own (s : State) (n : Nat) (f : BrgPort → BrgPort) : (updBrg s n f).own = s.own := rfl
@[simp] theorem updBrg_fuses (s : State) (n : Nat) (f : BrgPort → BrgPort) : (updBrg s n f).fuses = s.fuses := rfl
@[simp] theorem updBrg_boot (s : State) (n : Nat) (f : BrgPort → BrgPort) : (updBrg s n f).boot = s.boot := rfl
@[simp] theorem updBrg_regs (s : State) (n : Nat) (f : BrgPort → BrgPort) : (updBrg s n f).regs = s.regs := rfl
@[simp] theorem updBrg_dir (s : State) (n : Nat) (f : BrgPort → BrgPort) : (updBrg s n f).dir = s.dir := rfl
@[simp] theorem updBrg_pool (s : State) (n : Nat) (f : BrgPort → BrgPort) : (updBrg s n f).pool = s.pool := rfl
@[simp] theorem updBrg_maps (s : State) (n : Nat) (f : BrgPort → BrgPort) : (updBrg s n f).maps = s.maps := rfl
@[simp] theorem updBrg_sync (s : State) (n : Nat) (f : BrgPort → BrgPort) : (updBrg s n f).sync = s.sync := rfl
@[simp] theorem updBrg_rooms (s : State) (n : Nat) (f : BrgPort → BrgPort) : (updBrg s n f).rooms = s.rooms := rfl
@[simp] theorem updBrg_ledger (s : State) (n : Nat) (f : BrgPort → BrgPort) : (updBrg s n f).ledger = s.ledger := rfl
@[simp] theorem updBrg_engine (s : State) (n : Nat) (f : BrgPort → BrgPort) : (updBrg s n f).engine = s.engine := rfl
@[simp] theorem updBrg_coll (s : State) (n : Nat) (f : BrgPort → BrgPort) : (updBrg s n f).coll = s.coll := rfl
@[simp] theorem updBrg_filt (s : State) (n : Nat) (f : BrgPort → BrgPort) : (updBrg s n f).filt = s.filt := rfl
@[simp] theorem updBrg_innk (s : State) (n : Nat) (f : BrgPort → BrgPort) : (updBrg s n f).innk = s.innk := rfl
@[simp] theorem updBrg_hlth (s : State) (n : Nat) (f : BrgPort → BrgPort) : (updBrg s n f).hlth = s.hlth := rfl
@[simp] theorem updBrg_twin (s : State) (n : Nat) (f : BrgPort → BrgPort) : (updBrg s n f).twin = s.twin := rfl
@[simp] theorem updBrg_keys (s : State) (n : Nat) (f : BrgPort → BrgPort) : (updBrg s n f).keys = s.keys := rfl
@[simp] theorem updBrg_mgmt (s : State) (n : Nat) (f : BrgPort → BrgPort) : (updBrg s n f).mgmt = s.mgmt := rfl
@[simp] theorem updBrg_out (s : State) (n : Nat) (f : BrgPort → BrgPort) : (updBrg s n f).out = s.out := rfl

@[simp] theorem updFlex_pending (s : State) (n : Nat) (f : FlexPort → FlexPort) : (updFlex s n f).pending = s.pending := rfl
@[simp] theorem updFlex_freeCount (s : State) (n : Nat) (f : FlexPort → FlexPort) : (updFlex s n f).freeCount = s.freeCount := rfl
@[simp] theorem updFlex_time (s : State) (n : Nat) (f : FlexPort → FlexPort) : (updFlex s n f).time = s.time := rfl
@[simp] theorem updFlex_own (s : State) (n : Nat) (f : FlexPort → FlexPort) : (updFlex s n f).own = s.own := rfl
@[simp] theorem updFlex_fuses (s : State) (n : Nat) (f : FlexPort → FlexPort) : (updFlex s n f).fuses = s.fuses := rfl
@[simp] theorem updFlex_boot (s : State) (n : Nat) (f : FlexPort → FlexPort) : (updFlex s n f).boot = s.boot := rfl
@[simp] theorem updFlex_regs (s : State) (n : Nat) (f : FlexPort → FlexPort) : (updFlex s n f).regs = s.regs := rfl
@[simp] theorem updFlex_dir (s : State) (n : Nat) (f : FlexPort → FlexPort) : (updFlex s n f).dir = s.dir := rfl
@[simp] theorem updFlex_pool (s : State) (n : Nat) (f : FlexPort → FlexPort) : (updFlex s n f).pool = s.pool := rfl
@[simp] theorem updFlex_maps (s : State) (n : Nat) (f : FlexPort → FlexPort) : (updFlex s n f).maps = s.maps := rfl
@[simp] theorem updFlex_sync (s : State) (n : Nat) (f : FlexPort → FlexPort) : (updFlex s n f).sync = s.sync := rfl
@[simp] theorem updFlex_rooms (s : State) (n : Nat) (f : FlexPort → FlexPort) : (updFlex s n f).rooms = s.rooms := rfl
@[simp] theorem updFlex_ledger (s : State) (n : Nat) (f : FlexPort → FlexPort) : (updFlex s n f).ledger = s.ledger := rfl
@[simp] theorem updFlex_engine (s : State) (n : Nat) (f : FlexPort → FlexPort) : (updFlex s n f).engine = s.engine := rfl
@[simp] theorem updFlex_coll (s : State) (n : Nat) (f : FlexPort → FlexPort) : (updFlex s n f).coll = s.coll := rfl
@[simp] theorem updFlex_filt (s : State) (n : Nat) (f : FlexPort → FlexPort) : (updFlex s n f).filt = s.filt := rfl
@[simp] theorem updFlex_innk (s : State) (n : Nat) (f : FlexPort → FlexPort) : (updFlex s n f).innk = s.innk := rfl
@[simp] theorem updFlex_hlth (s : State) (n : Nat) (f : FlexPort → FlexPort) : (updFlex s n f).hlth = s.hlth := rfl
@[simp] theorem updFlex_twin (s : State) (n : Nat) (f : FlexPort → FlexPort) : (updFlex s n f).twin = s.twin := rfl
@[simp] theorem updFlex_keys (s : State) (n : Nat) (f : FlexPort → FlexPort) : (updFlex s n f).keys = s.keys := rfl
@[simp] theorem updFlex_mgmt (s : State) (n : Nat) (f : FlexPort → FlexPort) : (updFlex s n f).mgmt = s.mgmt := rfl
@[simp] theorem updFlex_out (s : State) (n : Nat) (f : FlexPort → FlexPort) : (updFlex s n f).out = s.out := rfl

@[simp] theorem emit_pending (s : State) (p : Packet) : (emit s p).pending = s.pending := rfl
@[simp] theorem emit_freeCount (s : State) (p : Packet) : (emit s p).freeCount = s.freeCount := rfl
@[simp] theorem emit_time (s : State) (p : Packet) : (emit s p).time = s.time := rfl
@[simp] theorem emit_own (s : State) (p : Packet) : (emit s p).own = s.own := rfl
@[simp] theorem emit_fuses (s : State) (p : Packet) : (emit s p).fuses = s.fuses := rfl
@[simp] theorem emit_boot (s : State) (p : Packet) : (emit s p).boot = s.boot := rfl
@[simp] theorem emit_regs (s : State) (p : Packet) : (emit s p).regs = s.regs := rfl
@[simp] theorem emit_dir (s : State) (p : Packet) : (emit s p).dir = s.dir := rfl
@[simp] theorem emit_pool (s : State) (p : Packet) : (emit s p).pool = s.pool := rfl
@[simp] theorem emit_maps (s : State) (p : Packet) : (emit s p).maps = s.maps := rfl
@[simp] theorem emit_sync (s : State) (p : Packet) : (emit s p).sync = s.sync := rfl
@[simp] theorem emit_rooms (s : State) (p : Packet) : (emit s p).rooms = s.rooms := rfl
@[simp] theorem emit_ledger (s : State) (p : Packet) : (emit s p).ledger = s.ledger := rfl
@[simp] theorem emit_engine (s : State) (p : Packet) : (emit s p).engine = s.engine := rfl
@[simp] theorem emit_coll (s : State) (p : Packet) : (emit s p).coll = s.coll := rfl
@[simp] theorem emit_filt (s : State) (p : Packet) : (emit s p).filt = s.filt := rfl
@[simp] theorem emit_innk (s : State) (p : Packet) : (emit s p).innk = s.innk := rfl
@[simp] theorem emit_hlth (s : State) (p : Packet) : (emit s p).hlth = s.hlth := rfl
@[simp] theorem emit_twin (s : State) (p : Packet) : (emit s p).twin = s.twin := rfl
@[simp] theorem emit_keys (s : State) (p : Packet) : (emit s p).keys = s.keys := rfl
@[simp] theorem emit_mgmt (s : State) (p : Packet) : (emit s p).mgmt = s.mgmt := rfl
@[simp] theorem emit_out (s : State) (p : Packet) : (emit s p).out = s.out := rfl

@[simp] theorem takeInbox_pending (s : State) (o : BitVec 8) (a : AgentId) (t : Tag) : (takeInbox s o a t).pending = s.pending := rfl
@[simp] theorem takeInbox_freeCount (s : State) (o : BitVec 8) (a : AgentId) (t : Tag) : (takeInbox s o a t).freeCount = s.freeCount := rfl
@[simp] theorem takeInbox_time (s : State) (o : BitVec 8) (a : AgentId) (t : Tag) : (takeInbox s o a t).time = s.time := rfl
@[simp] theorem takeInbox_own (s : State) (o : BitVec 8) (a : AgentId) (t : Tag) : (takeInbox s o a t).own = s.own := rfl
@[simp] theorem takeInbox_fuses (s : State) (o : BitVec 8) (a : AgentId) (t : Tag) : (takeInbox s o a t).fuses = s.fuses := rfl
@[simp] theorem takeInbox_boot (s : State) (o : BitVec 8) (a : AgentId) (t : Tag) : (takeInbox s o a t).boot = s.boot := rfl
@[simp] theorem takeInbox_regs (s : State) (o : BitVec 8) (a : AgentId) (t : Tag) : (takeInbox s o a t).regs = s.regs := rfl
@[simp] theorem takeInbox_dir (s : State) (o : BitVec 8) (a : AgentId) (t : Tag) : (takeInbox s o a t).dir = s.dir := rfl
@[simp] theorem takeInbox_pool (s : State) (o : BitVec 8) (a : AgentId) (t : Tag) : (takeInbox s o a t).pool = s.pool := rfl
@[simp] theorem takeInbox_maps (s : State) (o : BitVec 8) (a : AgentId) (t : Tag) : (takeInbox s o a t).maps = s.maps := rfl
@[simp] theorem takeInbox_sync (s : State) (o : BitVec 8) (a : AgentId) (t : Tag) : (takeInbox s o a t).sync = s.sync := rfl
@[simp] theorem takeInbox_rooms (s : State) (o : BitVec 8) (a : AgentId) (t : Tag) : (takeInbox s o a t).rooms = s.rooms := rfl
@[simp] theorem takeInbox_ledger (s : State) (o : BitVec 8) (a : AgentId) (t : Tag) : (takeInbox s o a t).ledger = s.ledger := rfl
@[simp] theorem takeInbox_engine (s : State) (o : BitVec 8) (a : AgentId) (t : Tag) : (takeInbox s o a t).engine = s.engine := rfl
@[simp] theorem takeInbox_coll (s : State) (o : BitVec 8) (a : AgentId) (t : Tag) : (takeInbox s o a t).coll = s.coll := rfl
@[simp] theorem takeInbox_filt (s : State) (o : BitVec 8) (a : AgentId) (t : Tag) : (takeInbox s o a t).filt = s.filt := rfl
@[simp] theorem takeInbox_innk (s : State) (o : BitVec 8) (a : AgentId) (t : Tag) : (takeInbox s o a t).innk = s.innk := rfl
@[simp] theorem takeInbox_hlth (s : State) (o : BitVec 8) (a : AgentId) (t : Tag) : (takeInbox s o a t).hlth = s.hlth := rfl
@[simp] theorem takeInbox_twin (s : State) (o : BitVec 8) (a : AgentId) (t : Tag) : (takeInbox s o a t).twin = s.twin := rfl
@[simp] theorem takeInbox_keys (s : State) (o : BitVec 8) (a : AgentId) (t : Tag) : (takeInbox s o a t).keys = s.keys := rfl
@[simp] theorem takeInbox_mgmt (s : State) (o : BitVec 8) (a : AgentId) (t : Tag) : (takeInbox s o a t).mgmt = s.mgmt := rfl
@[simp] theorem takeInbox_out (s : State) (o : BitVec 8) (a : AgentId) (t : Tag) : (takeInbox s o a t).out = s.out := rfl

@[simp] theorem updEntry_pending (s : State) (l : Nat) (f : DirEntry → DirEntry) : (updEntry s l f).pending = s.pending := rfl
@[simp] theorem updEntry_freeCount (s : State) (l : Nat) (f : DirEntry → DirEntry) : (updEntry s l f).freeCount = s.freeCount := rfl
@[simp] theorem updEntry_time (s : State) (l : Nat) (f : DirEntry → DirEntry) : (updEntry s l f).time = s.time := rfl
@[simp] theorem updEntry_own (s : State) (l : Nat) (f : DirEntry → DirEntry) : (updEntry s l f).own = s.own := rfl
@[simp] theorem updEntry_fuses (s : State) (l : Nat) (f : DirEntry → DirEntry) : (updEntry s l f).fuses = s.fuses := rfl
@[simp] theorem updEntry_boot (s : State) (l : Nat) (f : DirEntry → DirEntry) : (updEntry s l f).boot = s.boot := rfl
@[simp] theorem updEntry_regs (s : State) (l : Nat) (f : DirEntry → DirEntry) : (updEntry s l f).regs = s.regs := rfl
@[simp] theorem updEntry_fab (s : State) (l : Nat) (f : DirEntry → DirEntry) : (updEntry s l f).fab = s.fab := rfl
@[simp] theorem updEntry_pool (s : State) (l : Nat) (f : DirEntry → DirEntry) : (updEntry s l f).pool = s.pool := rfl
@[simp] theorem updEntry_maps (s : State) (l : Nat) (f : DirEntry → DirEntry) : (updEntry s l f).maps = s.maps := rfl
@[simp] theorem updEntry_sync (s : State) (l : Nat) (f : DirEntry → DirEntry) : (updEntry s l f).sync = s.sync := rfl
@[simp] theorem updEntry_rooms (s : State) (l : Nat) (f : DirEntry → DirEntry) : (updEntry s l f).rooms = s.rooms := rfl
@[simp] theorem updEntry_ledger (s : State) (l : Nat) (f : DirEntry → DirEntry) : (updEntry s l f).ledger = s.ledger := rfl
@[simp] theorem updEntry_engine (s : State) (l : Nat) (f : DirEntry → DirEntry) : (updEntry s l f).engine = s.engine := rfl
@[simp] theorem updEntry_coll (s : State) (l : Nat) (f : DirEntry → DirEntry) : (updEntry s l f).coll = s.coll := rfl
@[simp] theorem updEntry_filt (s : State) (l : Nat) (f : DirEntry → DirEntry) : (updEntry s l f).filt = s.filt := rfl
@[simp] theorem updEntry_innk (s : State) (l : Nat) (f : DirEntry → DirEntry) : (updEntry s l f).innk = s.innk := rfl
@[simp] theorem updEntry_hlth (s : State) (l : Nat) (f : DirEntry → DirEntry) : (updEntry s l f).hlth = s.hlth := rfl
@[simp] theorem updEntry_twin (s : State) (l : Nat) (f : DirEntry → DirEntry) : (updEntry s l f).twin = s.twin := rfl
@[simp] theorem updEntry_keys (s : State) (l : Nat) (f : DirEntry → DirEntry) : (updEntry s l f).keys = s.keys := rfl
@[simp] theorem updEntry_mgmt (s : State) (l : Nat) (f : DirEntry → DirEntry) : (updEntry s l f).mgmt = s.mgmt := rfl
@[simp] theorem updEntry_out (s : State) (l : Nat) (f : DirEntry → DirEntry) : (updEntry s l f).out = s.out := rfl

@[simp] theorem updTxn_pending (s : State) (t : Tag) (f : Txn → Txn) : (updTxn s t f).pending = s.pending := rfl
@[simp] theorem updTxn_freeCount (s : State) (t : Tag) (f : Txn → Txn) : (updTxn s t f).freeCount = s.freeCount := rfl
@[simp] theorem updTxn_time (s : State) (t : Tag) (f : Txn → Txn) : (updTxn s t f).time = s.time := rfl
@[simp] theorem updTxn_own (s : State) (t : Tag) (f : Txn → Txn) : (updTxn s t f).own = s.own := rfl
@[simp] theorem updTxn_fuses (s : State) (t : Tag) (f : Txn → Txn) : (updTxn s t f).fuses = s.fuses := rfl
@[simp] theorem updTxn_boot (s : State) (t : Tag) (f : Txn → Txn) : (updTxn s t f).boot = s.boot := rfl
@[simp] theorem updTxn_regs (s : State) (t : Tag) (f : Txn → Txn) : (updTxn s t f).regs = s.regs := rfl
@[simp] theorem updTxn_fab (s : State) (t : Tag) (f : Txn → Txn) : (updTxn s t f).fab = s.fab := rfl
@[simp] theorem updTxn_pool (s : State) (t : Tag) (f : Txn → Txn) : (updTxn s t f).pool = s.pool := rfl
@[simp] theorem updTxn_maps (s : State) (t : Tag) (f : Txn → Txn) : (updTxn s t f).maps = s.maps := rfl
@[simp] theorem updTxn_sync (s : State) (t : Tag) (f : Txn → Txn) : (updTxn s t f).sync = s.sync := rfl
@[simp] theorem updTxn_rooms (s : State) (t : Tag) (f : Txn → Txn) : (updTxn s t f).rooms = s.rooms := rfl
@[simp] theorem updTxn_ledger (s : State) (t : Tag) (f : Txn → Txn) : (updTxn s t f).ledger = s.ledger := rfl
@[simp] theorem updTxn_engine (s : State) (t : Tag) (f : Txn → Txn) : (updTxn s t f).engine = s.engine := rfl
@[simp] theorem updTxn_coll (s : State) (t : Tag) (f : Txn → Txn) : (updTxn s t f).coll = s.coll := rfl
@[simp] theorem updTxn_filt (s : State) (t : Tag) (f : Txn → Txn) : (updTxn s t f).filt = s.filt := rfl
@[simp] theorem updTxn_innk (s : State) (t : Tag) (f : Txn → Txn) : (updTxn s t f).innk = s.innk := rfl
@[simp] theorem updTxn_hlth (s : State) (t : Tag) (f : Txn → Txn) : (updTxn s t f).hlth = s.hlth := rfl
@[simp] theorem updTxn_twin (s : State) (t : Tag) (f : Txn → Txn) : (updTxn s t f).twin = s.twin := rfl
@[simp] theorem updTxn_keys (s : State) (t : Tag) (f : Txn → Txn) : (updTxn s t f).keys = s.keys := rfl
@[simp] theorem updTxn_mgmt (s : State) (t : Tag) (f : Txn → Txn) : (updTxn s t f).mgmt = s.mgmt := rfl
@[simp] theorem updTxn_out (s : State) (t : Tag) (f : Txn → Txn) : (updTxn s t f).out = s.out := rfl

@[simp] theorem setMark_pending (s : State) (l : Nat) (k : Option Mark) : (setMark s l k).pending = s.pending := rfl
@[simp] theorem setMark_freeCount (s : State) (l : Nat) (k : Option Mark) : (setMark s l k).freeCount = s.freeCount := rfl
@[simp] theorem setMark_time (s : State) (l : Nat) (k : Option Mark) : (setMark s l k).time = s.time := rfl
@[simp] theorem setMark_own (s : State) (l : Nat) (k : Option Mark) : (setMark s l k).own = s.own := rfl
@[simp] theorem setMark_fuses (s : State) (l : Nat) (k : Option Mark) : (setMark s l k).fuses = s.fuses := rfl
@[simp] theorem setMark_boot (s : State) (l : Nat) (k : Option Mark) : (setMark s l k).boot = s.boot := rfl
@[simp] theorem setMark_regs (s : State) (l : Nat) (k : Option Mark) : (setMark s l k).regs = s.regs := rfl
@[simp] theorem setMark_fab (s : State) (l : Nat) (k : Option Mark) : (setMark s l k).fab = s.fab := rfl
@[simp] theorem setMark_dir (s : State) (l : Nat) (k : Option Mark) : (setMark s l k).dir = s.dir := rfl
@[simp] theorem setMark_maps (s : State) (l : Nat) (k : Option Mark) : (setMark s l k).maps = s.maps := rfl
@[simp] theorem setMark_sync (s : State) (l : Nat) (k : Option Mark) : (setMark s l k).sync = s.sync := rfl
@[simp] theorem setMark_rooms (s : State) (l : Nat) (k : Option Mark) : (setMark s l k).rooms = s.rooms := rfl
@[simp] theorem setMark_ledger (s : State) (l : Nat) (k : Option Mark) : (setMark s l k).ledger = s.ledger := rfl
@[simp] theorem setMark_engine (s : State) (l : Nat) (k : Option Mark) : (setMark s l k).engine = s.engine := rfl
@[simp] theorem setMark_coll (s : State) (l : Nat) (k : Option Mark) : (setMark s l k).coll = s.coll := rfl
@[simp] theorem setMark_filt (s : State) (l : Nat) (k : Option Mark) : (setMark s l k).filt = s.filt := rfl
@[simp] theorem setMark_innk (s : State) (l : Nat) (k : Option Mark) : (setMark s l k).innk = s.innk := rfl
@[simp] theorem setMark_hlth (s : State) (l : Nat) (k : Option Mark) : (setMark s l k).hlth = s.hlth := rfl
@[simp] theorem setMark_twin (s : State) (l : Nat) (k : Option Mark) : (setMark s l k).twin = s.twin := rfl
@[simp] theorem setMark_keys (s : State) (l : Nat) (k : Option Mark) : (setMark s l k).keys = s.keys := rfl
@[simp] theorem setMark_mgmt (s : State) (l : Nat) (k : Option Mark) : (setMark s l k).mgmt = s.mgmt := rfl
@[simp] theorem setMark_out (s : State) (l : Nat) (k : Option Mark) : (setMark s l k).out = s.out := rfl

@[simp] theorem setSyncValue_pending (s : State) (n : Nat) (v : Word) : (setSyncValue s n v).pending = s.pending := rfl
@[simp] theorem setSyncValue_freeCount (s : State) (n : Nat) (v : Word) : (setSyncValue s n v).freeCount = s.freeCount := rfl
@[simp] theorem setSyncValue_time (s : State) (n : Nat) (v : Word) : (setSyncValue s n v).time = s.time := rfl
@[simp] theorem setSyncValue_own (s : State) (n : Nat) (v : Word) : (setSyncValue s n v).own = s.own := rfl
@[simp] theorem setSyncValue_fuses (s : State) (n : Nat) (v : Word) : (setSyncValue s n v).fuses = s.fuses := rfl
@[simp] theorem setSyncValue_boot (s : State) (n : Nat) (v : Word) : (setSyncValue s n v).boot = s.boot := rfl
@[simp] theorem setSyncValue_regs (s : State) (n : Nat) (v : Word) : (setSyncValue s n v).regs = s.regs := rfl
@[simp] theorem setSyncValue_fab (s : State) (n : Nat) (v : Word) : (setSyncValue s n v).fab = s.fab := rfl
@[simp] theorem setSyncValue_dir (s : State) (n : Nat) (v : Word) : (setSyncValue s n v).dir = s.dir := rfl
@[simp] theorem setSyncValue_pool (s : State) (n : Nat) (v : Word) : (setSyncValue s n v).pool = s.pool := rfl
@[simp] theorem setSyncValue_maps (s : State) (n : Nat) (v : Word) : (setSyncValue s n v).maps = s.maps := rfl
@[simp] theorem setSyncValue_rooms (s : State) (n : Nat) (v : Word) : (setSyncValue s n v).rooms = s.rooms := rfl
@[simp] theorem setSyncValue_ledger (s : State) (n : Nat) (v : Word) : (setSyncValue s n v).ledger = s.ledger := rfl
@[simp] theorem setSyncValue_engine (s : State) (n : Nat) (v : Word) : (setSyncValue s n v).engine = s.engine := rfl
@[simp] theorem setSyncValue_coll (s : State) (n : Nat) (v : Word) : (setSyncValue s n v).coll = s.coll := rfl
@[simp] theorem setSyncValue_filt (s : State) (n : Nat) (v : Word) : (setSyncValue s n v).filt = s.filt := rfl
@[simp] theorem setSyncValue_innk (s : State) (n : Nat) (v : Word) : (setSyncValue s n v).innk = s.innk := rfl
@[simp] theorem setSyncValue_hlth (s : State) (n : Nat) (v : Word) : (setSyncValue s n v).hlth = s.hlth := rfl
@[simp] theorem setSyncValue_twin (s : State) (n : Nat) (v : Word) : (setSyncValue s n v).twin = s.twin := rfl
@[simp] theorem setSyncValue_keys (s : State) (n : Nat) (v : Word) : (setSyncValue s n v).keys = s.keys := rfl
@[simp] theorem setSyncValue_mgmt (s : State) (n : Nat) (v : Word) : (setSyncValue s n v).mgmt = s.mgmt := rfl
@[simp] theorem setSyncValue_out (s : State) (n : Nat) (v : Word) : (setSyncValue s n v).out = s.out := rfl

@[simp] theorem updCtx_pending (s : State) (c : Context) (f : Context → Context) : (updCtx s c f).pending = s.pending := rfl
@[simp] theorem updCtx_freeCount (s : State) (c : Context) (f : Context → Context) : (updCtx s c f).freeCount = s.freeCount := rfl
@[simp] theorem updCtx_time (s : State) (c : Context) (f : Context → Context) : (updCtx s c f).time = s.time := rfl
@[simp] theorem updCtx_own (s : State) (c : Context) (f : Context → Context) : (updCtx s c f).own = s.own := rfl
@[simp] theorem updCtx_fuses (s : State) (c : Context) (f : Context → Context) : (updCtx s c f).fuses = s.fuses := rfl
@[simp] theorem updCtx_boot (s : State) (c : Context) (f : Context → Context) : (updCtx s c f).boot = s.boot := rfl
@[simp] theorem updCtx_regs (s : State) (c : Context) (f : Context → Context) : (updCtx s c f).regs = s.regs := rfl
@[simp] theorem updCtx_fab (s : State) (c : Context) (f : Context → Context) : (updCtx s c f).fab = s.fab := rfl
@[simp] theorem updCtx_dir (s : State) (c : Context) (f : Context → Context) : (updCtx s c f).dir = s.dir := rfl
@[simp] theorem updCtx_pool (s : State) (c : Context) (f : Context → Context) : (updCtx s c f).pool = s.pool := rfl
@[simp] theorem updCtx_maps (s : State) (c : Context) (f : Context → Context) : (updCtx s c f).maps = s.maps := rfl
@[simp] theorem updCtx_sync (s : State) (c : Context) (f : Context → Context) : (updCtx s c f).sync = s.sync := rfl
@[simp] theorem updCtx_rooms (s : State) (c : Context) (f : Context → Context) : (updCtx s c f).rooms = s.rooms := rfl
@[simp] theorem updCtx_ledger (s : State) (c : Context) (f : Context → Context) : (updCtx s c f).ledger = s.ledger := rfl
@[simp] theorem updCtx_engine (s : State) (c : Context) (f : Context → Context) : (updCtx s c f).engine = s.engine := rfl
@[simp] theorem updCtx_filt (s : State) (c : Context) (f : Context → Context) : (updCtx s c f).filt = s.filt := rfl
@[simp] theorem updCtx_innk (s : State) (c : Context) (f : Context → Context) : (updCtx s c f).innk = s.innk := rfl
@[simp] theorem updCtx_hlth (s : State) (c : Context) (f : Context → Context) : (updCtx s c f).hlth = s.hlth := rfl
@[simp] theorem updCtx_twin (s : State) (c : Context) (f : Context → Context) : (updCtx s c f).twin = s.twin := rfl
@[simp] theorem updCtx_keys (s : State) (c : Context) (f : Context → Context) : (updCtx s c f).keys = s.keys := rfl
@[simp] theorem updCtx_mgmt (s : State) (c : Context) (f : Context → Context) : (updCtx s c f).mgmt = s.mgmt := rfl
@[simp] theorem updCtx_out (s : State) (c : Context) (f : Context → Context) : (updCtx s c f).out = s.out := rfl

@[simp] theorem updTable_pending (s : State) (r : RoomId) (a : Nat) (f : Table → Table) : (updTable s r a f).pending = s.pending := rfl
@[simp] theorem updTable_freeCount (s : State) (r : RoomId) (a : Nat) (f : Table → Table) : (updTable s r a f).freeCount = s.freeCount := rfl
@[simp] theorem updTable_time (s : State) (r : RoomId) (a : Nat) (f : Table → Table) : (updTable s r a f).time = s.time := rfl
@[simp] theorem updTable_own (s : State) (r : RoomId) (a : Nat) (f : Table → Table) : (updTable s r a f).own = s.own := rfl
@[simp] theorem updTable_fuses (s : State) (r : RoomId) (a : Nat) (f : Table → Table) : (updTable s r a f).fuses = s.fuses := rfl
@[simp] theorem updTable_boot (s : State) (r : RoomId) (a : Nat) (f : Table → Table) : (updTable s r a f).boot = s.boot := rfl
@[simp] theorem updTable_regs (s : State) (r : RoomId) (a : Nat) (f : Table → Table) : (updTable s r a f).regs = s.regs := rfl
@[simp] theorem updTable_fab (s : State) (r : RoomId) (a : Nat) (f : Table → Table) : (updTable s r a f).fab = s.fab := rfl
@[simp] theorem updTable_dir (s : State) (r : RoomId) (a : Nat) (f : Table → Table) : (updTable s r a f).dir = s.dir := rfl
@[simp] theorem updTable_pool (s : State) (r : RoomId) (a : Nat) (f : Table → Table) : (updTable s r a f).pool = s.pool := rfl
@[simp] theorem updTable_maps (s : State) (r : RoomId) (a : Nat) (f : Table → Table) : (updTable s r a f).maps = s.maps := rfl
@[simp] theorem updTable_sync (s : State) (r : RoomId) (a : Nat) (f : Table → Table) : (updTable s r a f).sync = s.sync := rfl
@[simp] theorem updTable_rooms (s : State) (r : RoomId) (a : Nat) (f : Table → Table) : (updTable s r a f).rooms = s.rooms := rfl
@[simp] theorem updTable_ledger (s : State) (r : RoomId) (a : Nat) (f : Table → Table) : (updTable s r a f).ledger = s.ledger := rfl
@[simp] theorem updTable_engine (s : State) (r : RoomId) (a : Nat) (f : Table → Table) : (updTable s r a f).engine = s.engine := rfl
@[simp] theorem updTable_coll (s : State) (r : RoomId) (a : Nat) (f : Table → Table) : (updTable s r a f).coll = s.coll := rfl
@[simp] theorem updTable_innk (s : State) (r : RoomId) (a : Nat) (f : Table → Table) : (updTable s r a f).innk = s.innk := rfl
@[simp] theorem updTable_hlth (s : State) (r : RoomId) (a : Nat) (f : Table → Table) : (updTable s r a f).hlth = s.hlth := rfl
@[simp] theorem updTable_twin (s : State) (r : RoomId) (a : Nat) (f : Table → Table) : (updTable s r a f).twin = s.twin := rfl
@[simp] theorem updTable_keys (s : State) (r : RoomId) (a : Nat) (f : Table → Table) : (updTable s r a f).keys = s.keys := rfl
@[simp] theorem updTable_mgmt (s : State) (r : RoomId) (a : Nat) (f : Table → Table) : (updTable s r a f).mgmt = s.mgmt := rfl
@[simp] theorem updTable_out (s : State) (r : RoomId) (a : Nat) (f : Table → Table) : (updTable s r a f).out = s.out := rfl

@[simp] theorem setRwl_pending (s : State) (o : Nat) (v : Word) : (setRwl s o v).pending = s.pending := rfl
@[simp] theorem setRwl_freeCount (s : State) (o : Nat) (v : Word) : (setRwl s o v).freeCount = s.freeCount := rfl
@[simp] theorem setRwl_time (s : State) (o : Nat) (v : Word) : (setRwl s o v).time = s.time := rfl
@[simp] theorem setRwl_own (s : State) (o : Nat) (v : Word) : (setRwl s o v).own = s.own := rfl
@[simp] theorem setRwl_fuses (s : State) (o : Nat) (v : Word) : (setRwl s o v).fuses = s.fuses := rfl
@[simp] theorem setRwl_boot (s : State) (o : Nat) (v : Word) : (setRwl s o v).boot = s.boot := rfl
@[simp] theorem setRwl_fab (s : State) (o : Nat) (v : Word) : (setRwl s o v).fab = s.fab := rfl
@[simp] theorem setRwl_dir (s : State) (o : Nat) (v : Word) : (setRwl s o v).dir = s.dir := rfl
@[simp] theorem setRwl_pool (s : State) (o : Nat) (v : Word) : (setRwl s o v).pool = s.pool := rfl
@[simp] theorem setRwl_maps (s : State) (o : Nat) (v : Word) : (setRwl s o v).maps = s.maps := rfl
@[simp] theorem setRwl_sync (s : State) (o : Nat) (v : Word) : (setRwl s o v).sync = s.sync := rfl
@[simp] theorem setRwl_rooms (s : State) (o : Nat) (v : Word) : (setRwl s o v).rooms = s.rooms := rfl
@[simp] theorem setRwl_ledger (s : State) (o : Nat) (v : Word) : (setRwl s o v).ledger = s.ledger := rfl
@[simp] theorem setRwl_engine (s : State) (o : Nat) (v : Word) : (setRwl s o v).engine = s.engine := rfl
@[simp] theorem setRwl_coll (s : State) (o : Nat) (v : Word) : (setRwl s o v).coll = s.coll := rfl
@[simp] theorem setRwl_filt (s : State) (o : Nat) (v : Word) : (setRwl s o v).filt = s.filt := rfl
@[simp] theorem setRwl_innk (s : State) (o : Nat) (v : Word) : (setRwl s o v).innk = s.innk := rfl
@[simp] theorem setRwl_hlth (s : State) (o : Nat) (v : Word) : (setRwl s o v).hlth = s.hlth := rfl
@[simp] theorem setRwl_twin (s : State) (o : Nat) (v : Word) : (setRwl s o v).twin = s.twin := rfl
@[simp] theorem setRwl_keys (s : State) (o : Nat) (v : Word) : (setRwl s o v).keys = s.keys := rfl
@[simp] theorem setRwl_mgmt (s : State) (o : Nat) (v : Word) : (setRwl s o v).mgmt = s.mgmt := rfl
@[simp] theorem setRwl_out (s : State) (o : Nat) (v : Word) : (setRwl s o v).out = s.out := rfl

@[simp] theorem putBox_pending (s : State) (b : MailBox) : (putBox s b).pending = s.pending := rfl
@[simp] theorem putBox_freeCount (s : State) (b : MailBox) : (putBox s b).freeCount = s.freeCount := rfl
@[simp] theorem putBox_time (s : State) (b : MailBox) : (putBox s b).time = s.time := rfl
@[simp] theorem putBox_own (s : State) (b : MailBox) : (putBox s b).own = s.own := rfl
@[simp] theorem putBox_fuses (s : State) (b : MailBox) : (putBox s b).fuses = s.fuses := rfl
@[simp] theorem putBox_boot (s : State) (b : MailBox) : (putBox s b).boot = s.boot := rfl
@[simp] theorem putBox_regs (s : State) (b : MailBox) : (putBox s b).regs = s.regs := rfl
@[simp] theorem putBox_fab (s : State) (b : MailBox) : (putBox s b).fab = s.fab := rfl
@[simp] theorem putBox_dir (s : State) (b : MailBox) : (putBox s b).dir = s.dir := rfl
@[simp] theorem putBox_pool (s : State) (b : MailBox) : (putBox s b).pool = s.pool := rfl
@[simp] theorem putBox_maps (s : State) (b : MailBox) : (putBox s b).maps = s.maps := rfl
@[simp] theorem putBox_sync (s : State) (b : MailBox) : (putBox s b).sync = s.sync := rfl
@[simp] theorem putBox_rooms (s : State) (b : MailBox) : (putBox s b).rooms = s.rooms := rfl
@[simp] theorem putBox_ledger (s : State) (b : MailBox) : (putBox s b).ledger = s.ledger := rfl
@[simp] theorem putBox_engine (s : State) (b : MailBox) : (putBox s b).engine = s.engine := rfl
@[simp] theorem putBox_coll (s : State) (b : MailBox) : (putBox s b).coll = s.coll := rfl
@[simp] theorem putBox_filt (s : State) (b : MailBox) : (putBox s b).filt = s.filt := rfl
@[simp] theorem putBox_innk (s : State) (b : MailBox) : (putBox s b).innk = s.innk := rfl
@[simp] theorem putBox_hlth (s : State) (b : MailBox) : (putBox s b).hlth = s.hlth := rfl
@[simp] theorem putBox_twin (s : State) (b : MailBox) : (putBox s b).twin = s.twin := rfl
@[simp] theorem putBox_keys (s : State) (b : MailBox) : (putBox s b).keys = s.keys := rfl
@[simp] theorem putBox_out (s : State) (b : MailBox) : (putBox s b).out = s.out := rfl

@[simp] theorem say_pending (s : State) (o : Out) : (say s o).pending = s.pending := rfl
@[simp] theorem say_freeCount (s : State) (o : Out) : (say s o).freeCount = s.freeCount := rfl
@[simp] theorem say_time (s : State) (o : Out) : (say s o).time = s.time := rfl
@[simp] theorem say_own (s : State) (o : Out) : (say s o).own = s.own := rfl
@[simp] theorem say_fuses (s : State) (o : Out) : (say s o).fuses = s.fuses := rfl
@[simp] theorem say_boot (s : State) (o : Out) : (say s o).boot = s.boot := rfl
@[simp] theorem say_regs (s : State) (o : Out) : (say s o).regs = s.regs := rfl
@[simp] theorem say_fab (s : State) (o : Out) : (say s o).fab = s.fab := rfl
@[simp] theorem say_dir (s : State) (o : Out) : (say s o).dir = s.dir := rfl
@[simp] theorem say_pool (s : State) (o : Out) : (say s o).pool = s.pool := rfl
@[simp] theorem say_maps (s : State) (o : Out) : (say s o).maps = s.maps := rfl
@[simp] theorem say_sync (s : State) (o : Out) : (say s o).sync = s.sync := rfl
@[simp] theorem say_rooms (s : State) (o : Out) : (say s o).rooms = s.rooms := rfl
@[simp] theorem say_ledger (s : State) (o : Out) : (say s o).ledger = s.ledger := rfl
@[simp] theorem say_engine (s : State) (o : Out) : (say s o).engine = s.engine := rfl
@[simp] theorem say_coll (s : State) (o : Out) : (say s o).coll = s.coll := rfl
@[simp] theorem say_filt (s : State) (o : Out) : (say s o).filt = s.filt := rfl
@[simp] theorem say_innk (s : State) (o : Out) : (say s o).innk = s.innk := rfl
@[simp] theorem say_hlth (s : State) (o : Out) : (say s o).hlth = s.hlth := rfl
@[simp] theorem say_twin (s : State) (o : Out) : (say s o).twin = s.twin := rfl
@[simp] theorem say_keys (s : State) (o : Out) : (say s o).keys = s.keys := rfl
@[simp] theorem say_mgmt (s : State) (o : Out) : (say s o).mgmt = s.mgmt := rfl

@[simp] theorem drawn_pending (s : State) : (drawn s).pending = s.pending := rfl
@[simp] theorem drawn_time (s : State) : (drawn s).time = s.time := rfl
@[simp] theorem drawn_own (s : State) : (drawn s).own = s.own := rfl
@[simp] theorem drawn_fuses (s : State) : (drawn s).fuses = s.fuses := rfl
@[simp] theorem drawn_boot (s : State) : (drawn s).boot = s.boot := rfl
@[simp] theorem drawn_regs (s : State) : (drawn s).regs = s.regs := rfl
@[simp] theorem drawn_fab (s : State) : (drawn s).fab = s.fab := rfl
@[simp] theorem drawn_dir (s : State) : (drawn s).dir = s.dir := rfl
@[simp] theorem drawn_pool (s : State) : (drawn s).pool = s.pool := rfl
@[simp] theorem drawn_maps (s : State) : (drawn s).maps = s.maps := rfl
@[simp] theorem drawn_sync (s : State) : (drawn s).sync = s.sync := rfl
@[simp] theorem drawn_rooms (s : State) : (drawn s).rooms = s.rooms := rfl
@[simp] theorem drawn_ledger (s : State) : (drawn s).ledger = s.ledger := rfl
@[simp] theorem drawn_engine (s : State) : (drawn s).engine = s.engine := rfl
@[simp] theorem drawn_coll (s : State) : (drawn s).coll = s.coll := rfl
@[simp] theorem drawn_filt (s : State) : (drawn s).filt = s.filt := rfl
@[simp] theorem drawn_innk (s : State) : (drawn s).innk = s.innk := rfl
@[simp] theorem drawn_hlth (s : State) : (drawn s).hlth = s.hlth := rfl
@[simp] theorem drawn_twin (s : State) : (drawn s).twin = s.twin := rfl
@[simp] theorem drawn_keys (s : State) : (drawn s).keys = s.keys := rfl
@[simp] theorem drawn_mgmt (s : State) : (drawn s).mgmt = s.mgmt := rfl
@[simp] theorem drawn_out (s : State) : (drawn s).out = s.out := rfl

end Sys2Proof.Machine
end

