-- ==== Sys2Proof/Laws/Core.lean ====
section
/-!
SUPPORT. Laws/Core.lean: what an update of the members of a list that match does to a search of it, and from it what the
operations that core commands share can do.
-/

namespace Sys2Proof.Machine

/-- A search that the update does not disturb finds the updated member. -/
theorem find?_mapIf {α : Type} (p q : α → Bool) (f : α → α) (l : List α)
    (h : ∀ x, q (if p x then f x else x) = q x) :
    (mapIf p f l).find? q = (l.find? q).map fun x => if p x then f x else x := by
  induction l with
  | nil => rfl
  | cons a l ih =>
    simp only [mapIf, List.map_cons, List.find?_cons, h] at ih ⊢
    cases q a <;> simp [ih]

/-- The updated core. -/
theorem coreOf_updCore (s : State) (c : CoreId) (f : Core → Core) (hf : ∀ k, k.id = c → (f k).id = c) :
    coreOf (updCore s c f) c = (coreOf s c).map f := by
  unfold coreOf updCore
  simp only
  rw [find?_mapIf]
  · have h : ∀ x, s.engine.cores.find? (fun k => k.id == c) = some x → (x.id == c) = true := fun x hx => by
      simpa using List.find?_some hx
    cases hc : s.engine.cores.find? (fun k => k.id == c) with
    | none => rfl
    | some x =>
      have hx : x.id = c := by simpa using h x hc
      simp [hx]
  · intro x
    by_cases hx : x.id = c
    · simp [hx, hf x hx]
    · simp [hx]

/-- Every other core is as before. -/
theorem coreOf_updCore_ne (s : State) (c c' : CoreId) (f : Core → Core) (hf : ∀ k, k.id = c → (f k).id = c) (hc : c' ≠ c) :
    coreOf (updCore s c f) c' = coreOf s c' := by
  unfold coreOf updCore
  simp only
  rw [find?_mapIf]
  · cases hf' : s.engine.cores.find? (fun k => k.id == c') with
    | none => rfl
    | some x =>
      have : x.id = c' := by simpa using List.find?_some hf'
      simp [this, hc]
  · intro x
    by_cases hx : x.id = c
    · simp [hx, hf x hx]
    · simp [hx]

@[simp] theorem Core.next_id (k : Core) : k.next.id = k.id := rfl
@[simp] theorem Core.setS_id (k : Core) (r : Reg) (v : Word) : (k.setS r v).id = k.id := by unfold Core.setS; split <;> rfl
@[simp] theorem Core.setV_id (k : Core) (r : Reg) (v : BitVec 256) : (k.setV r v).id = k.id := rfl
@[simp] theorem Core.setP_id (k : Core) (r : PReg) (v : Word) : (k.setP r v).id = k.id := by unfold Core.setP; split <;> rfl
@[simp] theorem Core.setAcc_id (k : Core) (i : Nat) (a : Acc) : (k.setAcc i a).id = k.id := by unfold Core.setAcc; split <;> rfl
@[simp] theorem Core.raised_id (k : Core) (r : Raised) : (k.raised r).id = k.id := rfl
@[simp] theorem Core.branch_id (k : Core) (o : Int) : (k.branch o).id = k.id := rfl

/-- One instruction of a running core touches that core only. -/
theorem onCore_spec (s : State) (c : CoreId) (f : Core → Core) (k : Core) (hk : coreOf s c = some k) (hr : k.st = .running)
    (hf : ∀ k, k.id = c → (f k).id = c) :
    coreOf (onCore s c f) c = some (f k) ∧ (∀ c', c' ≠ c → coreOf (onCore s c f) c' = coreOf s c') ∧
      onCore s c f = { s with engine := { s.engine with cores := (onCore s c f).engine.cores } } := by
  have h : onCore s c f = updCore s c f := by simp [onCore, hk, hr]
  rw [h]
  exact ⟨by rw [coreOf_updCore s c f hf, hk]; rfl, fun c' hc => coreOf_updCore_ne s c c' f hf hc, rfl⟩

/-- On a core that does not run, an instruction does nothing. -/
theorem onCore_idle (s : State) (c : CoreId) (f : Core → Core) (h : ∀ k, coreOf s c = some k → k.st ≠ .running) :
    onCore s c f = s := by
  unfold onCore
  cases hk : coreOf s c with
  | none => rfl
  | some k => simp [h k hk]

end Sys2Proof.Machine
end

