-- ==== Sys2Proof/Laws/Elements.lean ====
section
/-!
SUPPORT. Laws/Elements.lean: the elements of a vector register that was made of elements.
-/

namespace Sys2Proof.Machine

theorem ofElems_lt (w : Nat) (l : List Nat) : ofElems w l < 2 ^ (w * l.length) := by
  induction l with
  | nil => simp [ofElems]
  | cons x l ih =>
    have h1 : x % 2 ^ w < 2 ^ w := Nat.mod_lt _ (Nat.two_pow_pos w)
    have h2 : 2 ^ (w * (l.length + 1)) = 2 ^ w * 2 ^ (w * l.length) := by rw [Nat.mul_add, Nat.mul_one, Nat.add_comm, Nat.pow_add]
    have h3 : 2 ^ w * (ofElems w l + 1) ≤ 2 ^ w * 2 ^ (w * l.length) := Nat.mul_le_mul_left _ ih
    simp only [ofElems, List.length_cons, h2]
    rw [Nat.mul_add, Nat.mul_one] at h3
    omega

theorem ofElems_div (w : Nat) (l : List Nat) : ∀ i, ofElems w l / 2 ^ (w * i) % 2 ^ w = l.getD i 0 % 2 ^ w := by
  induction l with
  | nil => intro i; simp [ofElems]
  | cons x l ih =>
    intro i
    have hp : 0 < 2 ^ w := Nat.two_pow_pos w
    cases i with
    | zero => simp [ofElems, Nat.add_mod]
    | succ i =>
      rw [Nat.mul_add, Nat.mul_one, Nat.add_comm (w * i) w, Nat.pow_add, ← Nat.div_div_eq_div_mul]
      simp only [ofElems]
      rw [Nat.add_mul_div_left _ _ hp, Nat.div_eq_of_lt (Nat.mod_lt _ hp), Nat.zero_add, ih i]
      simp

/-- Element `i` of a register made of elements that fill at most 256 bits. -/
theorem elem_vecOf (w : Nat) (l : List Nat) (i : Nat) (h : w * l.length ≤ 256) : elem (vecOf w l) w i = l.getD i 0 % 2 ^ w := by
  have hlt : ofElems w l < 2 ^ 256 := Nat.lt_of_lt_of_le (ofElems_lt w l) (Nat.pow_le_pow_right (by omega) h)
  rw [elem, vecOf, BitVec.toNat_ofNat, Nat.mod_eq_of_lt hlt, ofElems_div]

/-- What an elementwise operation gives: each chosen element its result, every other its old value. -/
theorem elem_mapElems (w : Nat) (p : Word) (old : BitVec 256) (f : Nat → Nat × Raised) (i : Nat)
    (hi : i < lanes w) :
    elem (mapElems w p old f).1 w i = if p.getLsbD i then (f i).1 % 2 ^ w else elem old w i := by
  have hl : w * (256 / w) ≤ 256 := Nat.mul_div_le 256 w
  unfold mapElems
  simp only
  rw [elem_vecOf _ _ _ (by simpa [lanes] using hl)]
  have hi' : i < 256 / w := hi
  simp only [List.getD_eq_getElem?_getD, List.getElem?_map]
  rw [List.getElem?_range hi]
  simp only [Option.map_some, Option.getD_some]
  split
  · rfl
  · simp [elem]

theorem vreg_setV (k : Core) (r r' : Reg) (v : BitVec 256) : (k.setV r v).vreg r' = if r' = r then v else k.vreg r' := by
  unfold Core.setV Core.vreg
  have h := r.isLt
  have h' := r'.isLt
  by_cases hr : r' = r
  · subst hr; simp [getElem!_pos, h']
  · have hn : r.toNat ≠ r'.toNat := fun e => hr (BitVec.eq_of_toNat_eq e.symm)
    simp [getElem!_pos, h', hr, hn]

end Sys2Proof.Machine
end

