-- ==== Sys2Proof/Laws/Memory.lean ====
section
/-!
SUPPORT. Laws/Memory.lean: reading after writing one byte or several, and that every memory operation keeps the canonical form.
-/

namespace Sys2Proof.Machine

theorem memOkFrom_cons (lo : Nat) (c : Host.Cell) (m : List Host.Cell) :
    memOkFrom lo (c :: m) = true ↔ lo ≤ c.1 ∧ c.2 ≠ 0 ∧ memOkFrom (c.1 + 1) m = true := by
  simp [memOkFrom, and_assoc]

theorem memOkFrom_mono {m : List Host.Cell} {lo lo' : Nat} (h : memOkFrom lo' m = true) (hl : lo ≤ lo') :
    memOkFrom lo m = true := by
  cases m with
  | nil => rfl
  | cons c m => rw [memOkFrom_cons] at h ⊢; exact ⟨Nat.le_trans hl h.1, h.2⟩

theorem readByte_cons (c : Host.Cell) (m : List Host.Cell) (a : Nat) :
    readByte (c :: m) a = if c.1 = a then c.2 else readByte m a := by
  by_cases h : c.1 = a <;> simp [readByte, h]

/-- A byte below the first listed address reads zero. -/
theorem readByte_below {m : List Host.Cell} {lo a : Nat} (h : memOkFrom lo m = true) (ha : a < lo) : readByte m a = 0 := by
  induction m generalizing lo with
  | nil => rfl
  | cons c m ih =>
    rw [memOkFrom_cons] at h
    rw [readByte_cons, if_neg (by omega)]
    exact ih h.2.2 (by omega)

/-- A written byte reads as written, and no other byte changes. -/
theorem readByte_writeByte_from {m : List Host.Cell} {lo : Nat} (h : memOkFrom lo m = true) (a a' : Nat) (b : Byte) :
    readByte (writeByte m a b) a' = if a' = a then b else readByte m a' := by
  induction m generalizing lo with
  | nil =>
    by_cases hb : b = 0#8
    · by_cases ha : a' = a <;> simp [writeByte, hb, ha, readByte]
    · by_cases ha : a' = a
      · simp [writeByte, hb, ha, readByte]
      · simp [writeByte, hb, ha, readByte, Ne.symm ha]
  | cons c m ih =>
    rw [memOkFrom_cons] at h
    obtain ⟨hl, hc, hm⟩ := h
    simp only [writeByte]
    split
    · rename_i hlt
      have hz : readByte m a = 0 := readByte_below hm (by omega)
      split
      · rename_i hb
        by_cases ha : a' = a
        · subst ha; rw [readByte_cons, if_neg (by omega), hz, if_pos rfl, hb]
        · simp [ha]
      · rw [readByte_cons]
        by_cases ha : a' = a
        · simp [ha]
        · simp [ha, Ne.symm ha]
    · split
      · rename_i hne heq
        split
        · rename_i hb
          have hz : readByte m a = 0 := readByte_below hm (by omega)
          by_cases ha : a' = a
          · subst ha; simp [hz, hb]
          · rw [readByte_cons c m, if_neg (show ¬ c.1 = a' by omega), if_neg ha]
        · rw [readByte_cons, readByte_cons]
          by_cases ha : a' = a
          · simp [ha]
          · simp [ha, Ne.symm ha, show ¬ c.1 = a' by omega]
      · rename_i hnl hne
        rw [readByte_cons, ih hm, readByte_cons]
        by_cases ha : a' = a
        · subst ha; simp [show ¬ c.1 = a' by omega]
        · simp [ha]

theorem readByte_writeByte {m : List Host.Cell} (h : Memory.wf m = true) (a a' : Nat) (b : Byte) :
    readByte (writeByte m a b) a' = if a' = a then b else readByte m a' := readByte_writeByte_from h a a' b

theorem memOkFrom_writeByte {m : List Host.Cell} {lo : Nat} (h : memOkFrom lo m = true) {a : Nat} (b : Byte) (ha : lo ≤ a) :
    memOkFrom lo (writeByte m a b) = true := by
  induction m generalizing lo with
  | nil => by_cases hb : b = 0#8 <;> simp [writeByte, hb, memOkFrom, ha]
  | cons c m ih =>
    have h' := h
    rw [memOkFrom_cons] at h
    obtain ⟨hl, hc, hm⟩ := h
    simp only [writeByte]
    split
    · split
      · exact h'
      · rename_i hb
        rw [memOkFrom_cons]
        exact ⟨ha, hb, by rw [memOkFrom_cons]; exact ⟨by simp; omega, hc, hm⟩⟩
    · split
      · split
        · exact memOkFrom_mono hm (by omega)
        · rename_i hnl heq hb
          rw [memOkFrom_cons]
          exact ⟨ha, hb, by simpa [heq] using hm⟩
      · rw [memOkFrom_cons]
        exact ⟨hl, hc, ih hm (by omega)⟩

/-- Storing a byte keeps the canonical form. -/
theorem wf_writeByte {m : List Host.Cell} (h : Memory.wf m = true) (a : Nat) (b : Byte) : Memory.wf (writeByte m a b) = true :=
  memOkFrom_writeByte h b (Nat.zero_le a)

/-- Storing bytes keeps the canonical form. -/
theorem wf_writeBytes (l : List Byte) : ∀ {m : List Host.Cell} (_ : Memory.wf m = true) (a : Nat),
    Memory.wf (writeBytes m a l) = true := by
  induction l with
  | nil => intro m h a; exact h
  | cons b l ih => intro m h a; exact ih (wf_writeByte h a b) (a + 1)

/-- What a byte reads as after bytes were stored. -/
theorem readByte_writeBytes (l : List Byte) : ∀ {m : List Host.Cell} (_ : Memory.wf m = true) (a a' : Nat),
    readByte (writeBytes m a l) a' = if a ≤ a' ∧ a' < a + l.length then l.getD (a' - a) 0 else readByte m a' := by
  induction l with
  | nil => intro m h a a'; rw [if_neg (by simp)]; rfl
  | cons b l ih =>
    intro m h a a'
    rw [writeBytes, ih (wf_writeByte h a b), readByte_writeByte h]
    by_cases h1 : a' = a
    · subst h1; rw [if_neg (by omega), if_pos rfl, if_pos (by simp)]; simp
    · by_cases h2 : a ≤ a' ∧ a' < a + (b :: l).length
      · have h3 : a + 1 ≤ a' ∧ a' < a + 1 + l.length := by simp at h2; omega
        rw [if_pos h3, if_pos h2]
        obtain ⟨k, rfl⟩ : ∃ k, a' = a + 1 + k := ⟨a' - (a + 1), by omega⟩
        simp [show a + 1 + k - a = k + 1 by omega]
      · have h3 : ¬ (a + 1 ≤ a' ∧ a' < a + 1 + l.length) := by simp at h2; omega
        rw [if_neg h3, if_neg h2, if_neg h1]

theorem memOkFrom_filter (p : Host.Cell → Bool) : ∀ (m : List Host.Cell) {lo : Nat}, memOkFrom lo m = true →
    memOkFrom lo (m.filter p) = true
  | [], _, _ => rfl
  | c :: m, lo, h => by
    rw [memOkFrom_cons] at h
    by_cases hp : p c = true
    · rw [List.filter_cons_of_pos hp, memOkFrom_cons]
      exact ⟨h.1, h.2.1, memOkFrom_filter p m h.2.2⟩
    · rw [List.filter_cons_of_neg hp]
      exact memOkFrom_filter p m (memOkFrom_mono h.2.2 (by omega))

/-- Dropping cells keeps the canonical form. -/
theorem wf_filter {m : List Host.Cell} (h : Memory.wf m = true) (p : Host.Cell → Bool) : Memory.wf (m.filter p) = true :=
  memOkFrom_filter p m h

/-- Clearing a range keeps the canonical form. -/
theorem wf_clearRange {m : List Host.Cell} (h : Memory.wf m = true) (a n : Nat) : Memory.wf (clearRange m a n) = true :=
  wf_filter h _

/-- Two canonical memories that read the same are the same. -/
theorem memory_ext_from : ∀ {m m' : List Host.Cell} {lo : Nat}, memOkFrom lo m = true → memOkFrom lo m' = true →
    (∀ a, readByte m a = readByte m' a) → m = m' := by
  intro m
  induction m with
  | nil =>
    intro m' lo _ h' e
    cases m' with
    | nil => rfl
    | cons c m' =>
      rw [memOkFrom_cons] at h'
      have := e c.1
      rw [readByte_cons, if_pos rfl] at this
      exact absurd this.symm h'.2.1
  | cons c m ih =>
    intro m' lo h h' e
    cases m' with
    | nil =>
      rw [memOkFrom_cons] at h
      have := e c.1
      rw [readByte_cons, if_pos rfl] at this
      exact absurd this h.2.1
    | cons d m' =>
      rw [memOkFrom_cons] at h h'
      have hcd : c.1 = d.1 := by
        rcases Nat.lt_trichotomy c.1 d.1 with hlt | heq | hgt
        · have := e c.1
          rw [readByte_cons, if_pos rfl, readByte_cons, if_neg (by omega), readByte_below h'.2.2 (by omega)] at this
          exact absurd this h.2.1
        · exact heq
        · have := e d.1
          rw [readByte_cons, if_neg (by omega), readByte_below h.2.2 (by omega), readByte_cons, if_pos rfl] at this
          exact absurd this.symm h'.2.1
      have hv : c.2 = d.2 := by
        have := e c.1
        rwa [readByte_cons, if_pos rfl, readByte_cons, if_pos hcd.symm] at this
      have hce : c = d := Prod.ext hcd hv
      subst hce
      congr 1
      refine ih h.2.2 h'.2.2 fun a => ?_
      by_cases hlt : a < c.1 + 1
      · rw [readByte_below h.2.2 hlt, readByte_below h'.2.2 hlt]
      · have := e a
        rwa [readByte_cons, if_neg (by omega), readByte_cons, if_neg (by omega)] at this

theorem memory_ext {m m' : List Host.Cell} (h : Memory.wf m = true) (h' : Memory.wf m' = true)
    (e : ∀ a, readByte m a = readByte m' a) : m = m' := memory_ext_from h h' e

end Sys2Proof.Machine
end

