-- ==== Sys2Proof/Laws/Work.lean ====
section
/-!
SUPPORT. Laws/Work.lean: what the operations that look up and change one record by its number do, and what descriptor work
does whose reads are all answered.
-/

namespace Sys2Proof.Machine

/-- A list searched by a key finds the changed record, if the change keeps the key. -/
theorem find?_mapIf_key {α β : Type} [DecidableEq β] (key : α → β) (k : β) (f : α → α) (l : List α)
    (hf : ∀ x, key x = k → key (f x) = k) :
    (mapIf (fun x => key x == k) f l).find? (fun x => key x == k) = (l.find? (fun x => key x == k)).map f := by
  rw [find?_mapIf]
  · cases h : l.find? (fun x => key x == k) with
    | none => rfl
    | some x =>
      have hx : key x = k := by simpa using List.find?_some h
      simp [hx]
  · intro x
    by_cases hx : key x = k
    · simp [hx, hf x hx]
    · simp [hx]

theorem roomOf_updRoom (s : State) (r : RoomId) (f : Room → Room) (hf : ∀ x, x.id = r → (f x).id = r) :
    roomOf (updRoom s r f) r = (roomOf s r).map f := find?_mapIf_key (fun x : Room => x.id) r f _ hf

theorem extentOf_updExtent (s : State) (k : Nat) (f : Extent → Extent) (hf : ∀ x, x.key = k → (f x).key = k) :
    extentOf (updExtent s k f) k = (extentOf s k).map f := find?_mapIf_key (fun x : Extent => x.key) k f _ hf

theorem tileOf_updTile (s : State) (k : Nat) (f : Tile → Tile) (hf : ∀ x, x.key = k → (f x).key = k) :
    tileOf (updTile s k f) k = (tileOf s k).map f := find?_mapIf_key (fun x : Tile => x.key) k f _ hf

theorem ledgerEntry_updLedger (s : State) (e : Nat) (f : Entry → Entry) (hf : ∀ x, x.n = e → (f x).n = e) :
    ledgerEntry (updLedger s e f) e = (ledgerEntry s e).map f := find?_mapIf_key (fun x : Entry => x.n) e f _ hf

theorem ringOf_updRing (s : State) (r : BitVec 12) (f : Ring → Ring) (hf : ∀ x, x.id = r → (f x).id = r) :
    ringOf (updRing s r f) r = (ringOf s r).map f := find?_mapIf_key (fun x : Ring => x.id) r f _ hf

theorem caravanOf_updCaravan (s : State) (i : Nat) (f : Caravan → Caravan) (hf : ∀ x, x.id = i → (f x).id = i) :
    caravanOf (updCaravan s i f) i = (caravanOf s i).map f := find?_mapIf_key (fun x : Caravan => x.id) i f _ hf

theorem streamOf_updStream (s : State) (e : Nat) (f : Machine.Stream → Machine.Stream) (hf : ∀ x, x.e = e → (f x).e = e) :
    streamOf (updStream s e f) e = (streamOf s e).map f := find?_mapIf_key (fun x : Machine.Stream => x.e) e f _ hf

theorem entryOf_updEntry (s : State) (l : Nat) (f : DirEntry → DirEntry) (hf : ∀ x, x.line = l → (f x).line = l) :
    entryOf (updEntry s l f) l = (entryOf s l).map f := find?_mapIf_key (fun x : DirEntry => x.line) l f _ hf

theorem fabPort_updFab (s : State) (n : Nat) (f : FabPort → FabPort) (hf : ∀ x, x.id = n → (f x).id = n) :
    fabPort (updFab s n f) n = (fabPort s n).map f := find?_mapIf_key (fun x : FabPort => x.id) n f _ hf

theorem brgPort_updBrg (s : State) (n : Nat) (f : BrgPort → BrgPort) (hf : ∀ x, x.id = n → (f x).id = n) :
    brgPort (updBrg s n f) n = (brgPort s n).map f := find?_mapIf_key (fun x : BrgPort => x.id) n f _ hf

theorem flexPort_updFlex (s : State) (n : Nat) (f : FlexPort → FlexPort) (hf : ∀ x, x.id = n → (f x).id = n) :
    flexPort (updFlex s n f) n = (flexPort s n).map f := find?_mapIf_key (fun x : FlexPort => x.id) n f _ hf

@[simp] theorem emit_outbox (s : State) (p : Packet) : (emit s p).fab.outbox = s.fab.outbox ++ [p] := rfl
@[simp] theorem say_out (s : State) (o : Out) : (say s o).out = s.out ++ [o] := rfl

/-- What `finish` does to an entry without a result: it gives the result and the time, and touches no other entry field. -/
theorem ledgerEntry_finish (s : State) (e : Nat) (r : Final) (en : Entry) (h : ledgerEntry s e = some en) (hr : en.result = none) :
    ledgerEntry (finish s e r) e = some { en with result := some r, doneAt := stamp s (frontEndIsland en.ring) } := by
  unfold finish
  rw [ledgerEntry_updLedger s e _ (fun x hx => by split <;> exact hx), h]
  simp [hr]

/-- A descriptor that runs has the opcode it runs under. -/
theorem runs_op (s : State) (en : Entry) (op : Nat) (h : runs s en op = true) : descOp en.desc = op := by
  simp only [runs, Bool.and_eq_true, beq_iff_eq] at h
  exact h.1.1.1.1

/-- Work whose reads are all answered is done once: the answers that it used are gone, unless its lines are read once. -/
theorem withEntry_done (s : State) (e op : Nat) (f : State → Entry → State) (en : Entry) (h : ledgerEntry s e = some en)
    (hr : runs s en op = true) (hn : (f (startEntry s e) en).own.need = []) :
    withEntry s e op f = if keepsLines op then f (startEntry s e) en else dropGot (f (startEntry s e) en) (.work e) := by
  simp [withEntry, tryWork, h, hr, hn, runs_op s en op hr]

/-- A descriptor of another opcode, or one that may not run, does nothing. -/
theorem withEntry_idle (s : State) (e op : Nat) (f : State → Entry → State)
    (h : ∀ en, ledgerEntry s e = some en → runs s en op = false) : withEntry s e op f = s := by
  cases hl : ledgerEntry s e with
  | none => simp [withEntry, tryWork, hl]
  | some en => simp [withEntry, tryWork, hl, h en hl]

end Sys2Proof.Machine
end

