-- ==== Sys2Proof/Tests/Slice0.lean ====
section
/-!
SUPPORT. Tests/Slice0.lean: named tests. Ill-formed commands are refused, core words decode as the tables spell them, single
steps give what the manual's tables say, and small states meet the premises of every statement. Expected values come from the
manual's tables or from hand calculation with them.
-/

namespace Sys2Proof.Tests

open Sys2Proof.Machine

set_option Elab.async false

/-! ### Ill-formed commands -/

def c0 : CoreId := { cluster := 0, core := 0 }

def r7 : Req :=
  { agent := 7, tag := 3, gen := 0, room := 1, epoch := 1, ocls := 0, wcls := 0, gfa := 0x200000, nb := 7, ce := false, port := none }

def pk : Packet :=
  { opcode := 0x40, vc := 2, ocls := 0, ce := false, poison := false, mcast := false, room := 1, src := 0, dst := 7, hint := 0, tag := 3
    epoch := 1, len := 1, hops := 8, wcls := 0, cee := false, w2 := 0x200000, w3 := 0, data := [1, 2] }

def fh : FlitHdr := { seq := 0, ack := 0, cvcA := 0, ccntA := 0, cvcB := 0, ccntB := 0, abort := false, intact := true }

theorem test_wf_core : wellFormed (.add c0 1 2 3) = true ∧ wellFormed (.add { cluster := 144, core := 0 } 1 2 3) = false ∧
    wellFormed (.done { cluster := 0, core := 32 }) = false := by decide
theorem test_wf_types : wellFormed (.vadd c0 3 1 2 3 0) = false ∧ wellFormed (.vcmp c0 8 1 2 3) = false ∧
    wellFormed (.vdot c0 0 1 2 3) = false ∧ wellFormed (.vcvt c0 9 1 2 3) = false ∧ wellFormed (.vcvt c0 0 1 2 25) = false ∧
    wellFormed (.vexp2 c0 1 1 2) = false ∧ wellFormed (.vrsum c0 7 1 2 0) = false := by decide
theorem test_wf_types_too : wellFormed (.vgth c0 1 1 2 3 0) = false ∧ wellFormed (.vrmax c0 1 1 2 0) = false ∧
    wellFormed (.vsel c0 9 1 2 3 0) = false ∧ wellFormed (.vshuf c0 2 1 2 3) = false ∧ wellFormed (.vbcast c0 6 1 2) = false ∧
    wellFormed (.vext c0 4 1 2 3) = false ∧ wellFormed (.xadd c0 5 1 2 3 0) = false ∧ wellFormed (.xrnd c0 8 1 2) = false := by decide
theorem test_wf_streams : wellFormed (.recv c0 1 8) = false ∧ wellFormed (.send c0 1 4) = false ∧ wellFormed (.mget c0 8 1 2 3) = false ∧
    wellFormed (.mput c0 1 1 2 3) = false ∧ wellFormed (.transferComplete { cluster := 0, core := 32 } 0 0 false []) = false := by decide +kernel
theorem test_wf_memory : wellFormed (.st r7 [1, 2]) = false ∧ wellFormed (.st r7 [1, 2, 3, 4, 5, 6, 7, 8]) = true ∧
    wellFormed (.wb r7 [1]) = false ∧ wellFormed (.srData { agent := 7, tag := 0, gfa := 0 } []) = false := by decide
theorem test_wf_links : wellFormed (.idleFlit 128 fh) = false ∧ wellFormed (.dataFlit 0 fh [.more 26]) = false ∧
    wellFormed (.dataFlit 0 fh [.start { pk with len := 0 } 1]) = false ∧ wellFormed (.linkControl 0 fh (.credits [1])) = false ∧
    wellFormed (.linkUp 0 3) = false ∧ wellFormed (.portDown 160) = false ∧ wellFormed (.memoryResponse { pk with hops := 64 }) = false := by decide
theorem test_wf_units : wellFormed (.moveStart 0 64) = false ∧ wellFormed (.evacuationDone 16) = false ∧ wellFormed (.trayLost 64) = false ∧
    wellFormed (.nop 262144) = false ∧ wellFormed (.tailDoorbell 1 (some 64) 0 []) = false ∧ wellFormed (.arrayScrubStep 8 { slot := 0 }) = false ∧
    wellFormed (.thermalTrip 8) = false ∧ wellFormed (.sourceReaderDeliver 256 { bytes := [], status := [] }) = false := by decide
theorem test_wf_ports : wellFormed (.ptpMessage 127 .sync 0 { offset := 0, grandmaster := 0, clockClass := 0, priority := 0, steps := 0 }) = false ∧
    wellFormed (.sessionTimeout 144) = false ∧ wellFormed (.keyUpdate 128 0 0) = false ∧ wellFormed (.macsecRekey 127) = false ∧
    wellFormed (.biEnable 143) = false ∧ wellFormed (.cxlMemwr 144 0 [] 0 0) = false ∧ wellFormed (.vfFlr 0) = false ∧
    wellFormed (.mailboxRequest 0 1025) = false ∧ wellFormed (.registerWrite 0 3 0) = false ∧ wellFormed (.mgmtLinkUp 64) = false := by decide

/-! ### Core words, written out from Tables 10-8 and 10-9 -/

theorem test_word_scalar : decodeCoreWord c0 0b000001_00011_00001_00010_000_0000_0001#32 = some (.sub c0 3 1 2) := by decide
theorem test_word_immediate : decodeCoreWord c0 0b000010_00101_00100_1111111111111111#32 = some (.addi c0 5 4 0xFFFF) := by decide
theorem test_word_branch : decodeCoreWord c0 0b001100_00001_111111111111111111100#32 = some (.jal c0 1 0x1FFFFC) := by decide
theorem test_word_store : decodeCoreWord c0 0b010011_00111_01000_0000000000010000#32 = some (.std c0 7 8 16) := by decide
theorem test_word_vector : decodeCoreWord c0 0b100000_00001_00010_00011_101_0010_0011#32 = some (.vfma c0 2 1 2 3 5) := by decide
theorem test_word_accumulator : decodeCoreWord c0 0b101000_00100_00101_01001_010_0110_0000#32 = some (.xadd c0 6 4 5 9 2) := by decide
theorem test_word_stream : decodeCoreWord c0 0b110000_00110_00000_00111_000_0000_0000#32 = some (.recv c0 6 7) := by decide
theorem test_word_system : decodeCoreWord c0 0b111000_00000_00000_00000_000_0000_0010#32 = some (.done c0) := by decide
theorem test_word_invalid : decodeCoreWord c0 0#32 = none ∧ decodeCoreWord c0 0b000001_00011_00001_00010_001_0000_0001#32 = none := by decide
theorem test_word_back : encodeCoreWord (.vfma c0 2 1 2 3 5) = some 0b100000_00001_00010_00011_101_0010_0011#32 := by decide

/-! ### States -/

/-- The switch at work: the set-up lock taken. -/
def run0 : State := { State.reset with boot := { State.reset.boot with power := .running } }

def k0 : Core := { id := c0, st := .running }

def withCore (k : Core) (s : State) : State := { s with engine := { s.engine with cores := [k] } }

def sCore : State := withCore k0 run0

/-- A caravan of one stage on cluster 0: 16 B of code, no edges. -/
def stage0 : Stage :=
  { builtin := none, clusters := [0], usedCores := 1, codeLen := 16, dataInit := [], code := [], localNeed := 0, inputs := 1, outputs := 1
    entry := 4, cRec := 10, cByte := 1, ratio := 65536, rerunUnsafe := false, depth := 2, prm := [] }

def run1 : Run := { e := 0, recSize := 64, src := 0x200000, srcLen := 128, sink := 0x200000, sinkCap := 0 }

def van0 : Caravan := { id := 0, room := 1, stages := [stage0], edges := [], run := some run1 }

def withVan (v : Caravan) (s : State) : State := { s with engine := { s.engine with caravans := [v] } }

def sVan : State := withVan van0 sCore

/-- A core whose scalar register 1 holds a value. -/
def coreWith (x : Word) : Core := k0.setS 1 x

/-! ### Cores: results of single instructions, and states that meet the premises -/

/-- Register `d` of core 0 after a command. -/
def regAfter (i : Instr) (s : State) (d : Reg) : Option Word :=
  match exec i s with
  | .next t => (coreOf t c0).map fun k => k.sreg d
  | _ => none

def pcAfter (i : Instr) (s : State) : Option (BitVec 16) :=
  match exec i s with
  | .next t => (coreOf t c0).map fun k => k.pc
  | _ => none

theorem test_sub_wraps : regAfter (.sub c0 3 0 1) (withCore (coreWith 1) run0) 3 = some 0xFFFFFFFFFFFFFFFF := by decide +kernel
theorem test_sra_sign : regAfter (.sra c0 3 1 1) (withCore (coreWith 0x8000000000000004) run0) 3 = some 0xF800000000000000 := by decide +kernel
theorem test_slt_signed : regAfter (.slt c0 3 1 0) (withCore (coreWith 0xFFFFFFFFFFFFFFFF) run0) 3 = some 1 := by decide +kernel
theorem test_s0_keeps_zero : regAfter (.addi c0 0 0 5) sCore 0 = some 0 := by decide +kernel
theorem test_lui_sign : regAfter (.lui c0 2 0x8000) sCore 2 = some 0xFFFFFFFF80000000 := by decide +kernel
theorem test_branch_back : pcAfter (.beq c0 0 0 0xFFFF) (withCore { k0 with pc := 8 } run0) = some 4 := by decide +kernel
theorem test_jal_links : regAfter (.jal c0 2 0x1FFFFC) (withCore { k0 with pc := 8 } run0) 2 = some 12 := by decide +kernel

theorem witness_core : Active sCore c0 k0 := ⟨by decide +kernel, rfl⟩
theorem witness_core_types : (0x0#4).toNat ∈ [0x0, 0x1, 0x2, 0x6, 0x7] ∧ (0xB#4).toNat ∈ [0x1, 0x2, 0x3, 0x4, 0x5, 0x7, 0x8, 0x9, 0xA, 0xB] ∧
    (0x8#4).toNat < 9 ∧ (0x18#5).toNat % 16 < 9 ∧ (0x5#4).toNat ∈ [0x0, 0x1, 0x3, 0x5] ∧ (0x4#4).toNat ∈ [0x0, 0x1, 0x2, 0x3, 0x4, 0x6, 0x7] := by decide
theorem witness_core_bad_types : (0x3#4).toNat ∉ [0x0, 0x1, 0x2, 0x6, 0x7] ∧ (0x1#4).toNat ∉ [0x0, 0x6] ∧ (1#4) ≠ 0 ∧
    (0x2#4).toNat ∉ [0x0, 0x1, 0x3, 0x5] ∧ 8 < (0x9#4).toNat ∧ 11 < (0xC#4).toNat ∧ (0x7#4).toNat ∉ [0x0, 0x1, 0x2, 0x6] ∧
    (0x5#4).toNat ∉ [0x0, 0x1, 0x2, 0x3, 0x4, 0x6, 0x7] ∧ (0x1#4).toNat % 2 = 1 ∧ 8 ≤ (0x8#5).toNat ∧ 4 ≤ (0x4#5).toNat := by decide
theorem witness_jr_last_word : Active (withVan van0 (withCore (coreWith 15) run0)) c0 (coreWith 15) ∧
    ((coreWith 15).sreg 1).toNat / 4 * 4 < codeLenOf (withVan van0 (withCore (coreWith 15) run0)) c0 := ⟨⟨by decide +kernel, rfl⟩, by decide +kernel⟩
theorem witness_jr_end : coreOf (withVan van0 (withCore (coreWith 16) run0)) c0 = some (coreWith 16) ∧ (coreWith 16).st = .running ∧
    codeLenOf (withVan van0 (withCore (coreWith 16) run0)) c0 ≤ ((coreWith 16).sreg 1).toNat / 4 * 4 := by decide +kernel
theorem witness_stores : Memory.wf sVan.engine.stores = true ∧ inCode sVan c0 15 = true ∧ inCode sVan c0 16 = false ∧ inCode sVan c0 0x1000000 = false := by
  decide +kernel
theorem witness_stage : stageAt sVan c0.cluster = some (van0, 0) ∧ van0.stages[0]? = some stage0 ∧ caravanOf sVan van0.id = some van0 := by decide +kernel
theorem witness_budget : inBudget { k0 with got := true } = true := by decide +kernel

/-- A record in the input-0 queue of stage 0. -/
def rec0 : Rec := { n := 3, k := 1, handle := mkHandle 0x3FF000 8 true false }

def van1 : Caravan := { van0 with queues := [{ stage := 0, input := 0, cluster := 0, core := none, recs := [rec0] }] }

def heldCore : Core := { coreWith 0x1000010 with held := [mkHandle 0x10 8 false false] }

theorem witness_recv_record : findInput (withVan van1 sCore) van1 0 k0 0 = .record none rec0 ∧ stageAt (withVan van1 sCore) c0.cluster = some (van1, 0) ∧
    (receive (withVan van1 sCore) k0 0 5).isSome = true := by decide +kernel
theorem witness_recv_waits : (receive (updCore sVan c0 Core.next) k0 0 5).isNone = true := by decide +kernel
theorem witness_recv_wake : coreOf (withVan van1 (withCore { k0 with st := .recvWait 0 5 } run0)) c0 = some { k0 with st := .recvWait 0 5 } ∧
    (receive (withVan van1 (withCore { k0 with st := .recvWait 0 5 } run0)) { k0 with st := .recvWait 0 5 } 0 5).isSome = true := by decide +kernel
theorem witness_send_not_held : Active sVan c0 k0 ∧ heldHandle k0 (k0.sreg 1) = none := ⟨⟨by decide +kernel, rfl⟩, by decide +kernel⟩
theorem witness_send_held : Active (withVan van0 (withCore heldCore run0)) c0 heldCore ∧ heldHandle heldCore (heldCore.sreg 1) = some (mkHandle 0x10 8 false false) :=
  ⟨⟨by decide +kernel, rfl⟩, by decide +kernel⟩
theorem witness_other_home : isHome (withCore (coreWith 0x0001000000200000) run0) (homeOf ((coreWith 0x0001000000200000).sreg 1)) = false := by decide +kernel

def put0 : Transfer :=
  { id := 0, isGet := false, isSync := false, localAddr := 0, gfa := 0x0001000000200000, bytes := 64, volatile := false, ocls := 0 }

theorem witness_transfer : coreOf (withCore { k0 with st := .fence, transfers := [put0], nextTransfer := 1 } run0) c0 =
      some { k0 with st := .fence, transfers := [put0], nextTransfer := 1 } ∧
    [put0].find? (fun y => y.id == 0) = some put0 ∧ isHome run0 (homeOf put0.gfa) = false := by decide +kernel

/-- A store of transfer 0 of core 0, outstanding at another home. -/
def ask0 : OwnReq := { n := 0, who := .transfer c0 0, engine := 0, op := .st [], gfa := 0x0001000000200000, nb := 63, room := 1 }
theorem witness_transfer_awaits : awaits { run0 with own := { run0.own with sent := [ask0] } } (.transfer c0 0) = true ∧
    awaits run0 (.transfer c0 0) = false := by decide +kernel
theorem witness_away : (∀ l ∈ linesOf 0x0001000000200000 64, isHome run0 (homeOf (lineGfa l)) = false) ∧
    (∀ l ∈ linesOf 0x0001000000200000 64, lineBuffered run0 0 l = none) := by decide +kernel
theorem witness_own_idle : OwnIdle run0 := ⟨rfl, rfl, rfl, nofun⟩
/-- A caravan whose stage waits for two cores. -/
def vanTwo : Caravan := { van0 with stages := [{ stage0 with usedCores := 2 }] }
theorem witness_stages_stand : StagesStand (withVan vanTwo sCore) 0 := by
  intro v i h
  have h' : (vanTwo, 0) = (v, i) := Option.some.inj ((by decide +kernel : some (vanTwo, 0) = stageAt (withVan vanTwo sCore) 0).trans h)
  cases h'
  exact .inr ⟨by decide +kernel, by decide, by decide +kernel⟩

theorem witness_core_word : wellFormed (.jr c0 1) = true ∧ (encodeCoreWord (.jr c0 1)).isSome = true := by decide
theorem witness_acc_modes : ({ mode := 4 } : Acc).mode ≤ 4 ∧ (accOf (5#512 <<< 384)).2 = true ∧ (accOf (4#512 <<< 384)).2 = false ∧
    (accOf (1#512 <<< 399)).2 = true := by decide +kernel
theorem test_xadd_counts : (accAdd {} 6 0xFFFFFFFF false).1.value.toInt = -1 ∧ (accAdd {} 6 0xFFFFFFFF false).1.count = 1 := by decide +kernel
theorem witness_merge : OfMode 3 { mode := 3, count := 1 } ∧ OfMode 3 {} ∧ ({ mode := 3 } : Acc) ≠ {} ∧ ({ mode := 3 } : Acc).mode ≠ ({ mode := 4 } : Acc).mode :=
  ⟨.inr (by decide), .inl rfl, by decide +kernel, by decide⟩

/-! ### The home -/

def slice1 : Slice :=
  { switch := 0, share := 1000, ring0 := 16, nrings := 16, clusters := 0xFF, hbm := 0xFFFF, trays := 0, fabPorts := 1, brgPorts := 0, flexPorts := 0
    funcs := 2, quota0 := 4, quota1 := 0, quota2 := 0, members := [7, 8] }

def room1 : Room := { id := 1, holder := 0, current := 1, cur := [slice1] }

def ext1 : Extent := { key := 1, room := 1, domain := 0, survival := 0, lineAddressed := false, pin := false, revert := false }

def tile1 : Tile := { key := 32, res := { tier := 0, unit := 0, lineAddressed := false } }

/-- A switch at work that is home of one extent of room 1, whose agents are 7 and 8. -/
def sHome : State := { run0 with
  rooms := { rooms := [room1], domains := [{ room := 1, idx := 0, agents := [7, 8] }], changes := [] }
  maps := { run0.maps with exts := [ext1], tiles := [tile1] } }

def withEntries (l : List DirEntry) (s : State) : State := { s with dir := { s.dir with entries := l } }

def shared7 : DirEntry := { line := 0x8000, st := .shared, ptrs := [7] }
def shared78 : DirEntry := { line := 0x8000, st := .shared, ptrs := [7, 8] }
def owned7 : DirEntry := { line := 0x8000, st := .unique, ptrs := [7] }

/-- The line request of agent 7. -/
def r7l : Req := { r7 with nb := 63 }

/-- Data that a command's own response carries, and its status. -/
def answerOf (i : Instr) (s : State) : List (BitVec 8 × BitVec 8) :=
  match exec i s with
  | .next t => t.fab.outbox.map fun p => (p.opcode, p.w3.extractLsb' 56 8)
  | _ => []

theorem witness_calm : Calm sHome r7 ∧ Calm sHome r7l := by
  constructor <;> exact ⟨by decide +kernel, by decide +kernel, by decide +kernel, by decide +kernel, rfl, rfl, rfl, rfl, rfl, by decide +kernel, by
    intro t h; have : t = tile1 := Option.some.inj (h.symm.trans (by decide +kernel : _ = some tile1)); subst this; rfl⟩
theorem witness_admitted : Admitted sHome r7 (.ld false) ∧ Admitted sHome r7 (.st [1, 2, 3, 4, 5, 6, 7, 8]) ∧ Admitted sHome r7 (.amo 0 5) ∧
    Admitted sHome r7 (.cas 1 2) := by
  refine ⟨⟨?_, ?_, ?_, ?_⟩, ⟨?_, ?_, ?_, ?_⟩, ⟨?_, ?_, ?_, ?_⟩, ⟨?_, ?_, ?_, ?_⟩⟩ <;> decide +kernel
theorem witness_admitted_lines : Admitted sHome r7l .rdS ∧ Admitted sHome r7l .rdU ∧ Admitted sHome r7l .upg := by
  refine ⟨⟨?_, ?_, ?_, ?_⟩, ⟨?_, ?_, ?_, ?_⟩, ⟨?_, ?_, ?_, ?_⟩⟩ <;> decide +kernel
theorem witness_home_empty : readStatus sHome r7.gfa = 0x00 ∧ (entryOf sHome (lineKey r7.gfa)).isNone = true ∧ Memory.wf sHome.pool.mem = true ∧
    setHasRoom sHome (lineKey r7.gfa) = true ∧ lostLine sHome r7.agent (lineKey r7.gfa) = false := by decide +kernel
theorem witness_home_held : entryOf (withEntries [shared7] sHome) (lineKey r7l.gfa) = some shared7 ∧ shared7.ptrs = [r7l.agent] ∧
    entryOf (withEntries [shared78] sHome) (lineKey r7l.gfa) = some shared78 ∧ shared78.ptrs.filter (fun a => a != r7l.agent) ≠ [] ∧
    entryOf (withEntries [owned7] sHome) (lineKey r7l.gfa) = some owned7 ∧ owned7.st = .unique ∧ owned7.ptrs = [r7l.agent] ∧
    sliceHasRoom sHome r7l.gfa = true := by decide +kernel
theorem witness_calm_held : Calm (withEntries [owned7] sHome) r7l ∧ Calm (withEntries [shared78] sHome) r7l := by
  constructor <;> exact ⟨by decide +kernel, by decide +kernel, by decide +kernel, by decide +kernel, rfl, rfl, rfl, rfl, rfl, by decide +kernel, by
    intro t h; have : t = tile1 := Option.some.inj (h.symm.trans (by decide +kernel : _ = some tile1)); subst this; rfl⟩

def sSnap : State := { sHome with maps := { sHome.maps with
  handles := [{ h := 5, room := 1, cut := 1, exts := [1], until_ := 100 }]
  retained := [{ cut := 1, tile := 32, res := { tier := 0, unit := 0, lineAddressed := false }, cells := [(0x200000, 9)], marks := [] }] } }

theorem witness_snapshot : (sSnap.maps.handles.find? (fun x => x.h == 5 && x.room == r7.room && x.exts.contains (extKey r7.gfa))).isSome = true ∧
    (retainedFor sSnap 1 (tileKey r7.gfa)).isSome = true ∧ (retainedFor sHome 1 (tileKey r7.gfa)).isNone = true ∧
    admitCode sSnap r7.agent r7.room r7.epoch r7.gfa (isCounted sSnap r7) = 0x00 := by decide +kernel

/-- R80 and R27: requests that fail, with the opcode and status of their answers. -/
theorem test_malformed_status : answerOf (.amo { r7 with nb := 2 } 0 1) sHome = [(0x43, 0x09)] := by decide +kernel
theorem test_denied_status : answerOf (.ld { r7 with agent := 9 } false) sHome = [(0x40, 0x03)] := by decide +kernel
theorem test_stale_status : answerOf (.ld { r7 with epoch := 2 } false) sHome = [(0x40, 0x08)] := by decide +kernel
theorem test_extent_zero_denied : answerOf (.ld { r7 with gfa := 0x1000 } false) sHome = [(0x40, 0x03)] := by decide +kernel

theorem test_store_writes : (match exec (.st { r7 with nb := 1 } [0xAB, 0xCD]) sHome with
    | .next t => readBytes t.pool.mem 0x200000 3
    | _ => []) = [0xAB, 0xCD, 0] := by decide +kernel
theorem test_amo_adds : (match exec (.amo { r7 with nb := 3 } 0 0xFFFFFFFF) { sHome with pool := { mem := [(0x200000, 1)], marks := [] } } with
    | .next t => readBytes t.pool.mem 0x200000 5
    | _ => [1]) = [0, 0, 0, 0, 0] := by decide +kernel
theorem test_owner_is_snooped : answerOf (.rdS { r7l with agent := 8 }) (withEntries [owned7] sHome) = [(0x71, 0)] := by decide +kernel

/-- A line of agents 7 and 8 that is being invalidated. -/
def txn1 : Txn := { tag := 4, line := 0x8000, kind := .inv, awaited := [7, 8], sentAt := 0, cause := none }

def sTxn : State := { withEntries [{ shared78 with busy := true }] sHome with dir := { entries := [{ shared78 with busy := true }], txns := [txn1] } }

theorem witness_snoop_awaited : sTxn.dir.txns = [txn1] ∧ (7#18) ∈ txn1.awaited ∧ txn1.awaited.filter (fun x => x != 7) ≠ [] ∧ txn1.line < 2 ^ 58 := by
  decide +kernel

def open7 : HomeEntry := { req := r7, opcode := 0x00, arrived := 0 }
def sOpen : State := { sHome with dir := { sHome.dir with trk := [open7] } }
def sReplay : State := { sHome with dir := { sHome.dir with
  replay := [{ agent := 7, tag := 3, epoch := 1, gen := 0, room := 1, resp := pk, until_ := 100 }] } }

theorem witness_duplicates : trackOf sOpen r7.agent r7.tag = some open7 ∧ open7.req.gen = r7.gen ∧ trackOf sReplay r7.agent r7.tag = none ∧
    (sReplay.dir.replay.find? (fun e => e.agent == r7.agent && e.tag == r7.tag && e.epoch == r7.epoch)).isSome = true := by decide +kernel

def sLease : State := { sHome with dir := { sHome.dir with leases := [{ agent := 7, until_ := 0 }] } }
def sRoute : State := { sHome with fab := { sHome.fab with noRoute := [(7, 0)] }, time := { sHome.time with now := 9000 } }

theorem witness_leases : (∃ l ∈ sLease.dir.leases, l.agent = 7 ∧ l.until_ ≤ sLease.time.now) ∧ flexRenews sLease 7 = false ∧ isHome sLease 0 = true := by
  decide +kernel
theorem witness_route_loss : agentReachable sRoute 7 = false ∧ (∃ y ∈ sRoute.fab.noRoute, y.1 = 7 ∧ y.2 + tDead sRoute ≤ sRoute.time.now) := by decide +kernel
theorem witness_snoop_loss : txn1.sentAt + tDead sTxn ≤ 8000 ∧ linesHeld { sTxn with dir := { sTxn.dir with entries := [] } } 7 = [] := by decide +kernel

def att7 : AttEntry := { agent := 7, tag := 3, gen := 0, epoch := 1, room := 1, gfa := 0x200000, opcode := 0x00, nb := 7, tA := 0, port := 0 }
def port0 : FabPort := { id := 0, up := true, sess := { phase := 6 } }
def sAtt : State := { sHome with fab := { sHome.fab with att := [att7], ports := [port0] }, time := { sHome.time with now := 8000 } }

theorem witness_attachment : attOf sAtt 7 3 = some att7 ∧ att7.tA + tDead sAtt - 250 ≤ sAtt.time.now ∧ (∃ q ∈ sAtt.fab.ports, q.id = att7.port) ∧
    sAtt.fab.att.find? (fun e => e.agent == pk.dst && e.tag == pk.tag && e.gen == pk.w3.extractLsb' 52 4) = some att7 := by decide +kernel

def pending7 : Txn := { txn1 with cause := some (r7l, .rdU) }
def sPending : State := { sHome with
  dir := { entries := [{ shared78 with busy := true }], txns := [pending7], trk := [{ req := r7l, opcode := 0x62, arrived := 0 }] }
  time := { sHome.time with now := 16000 } }

theorem witness_promotion : txnOf sPending (lineKey r7l.gfa) = some pending7 ∧ isPendingWrite sPending pending7 = true ∧
    (trackOf sPending r7l.agent r7l.tag).isSome = true ∧ 0 + ageNs sPending ≤ sPending.time.now := by decide +kernel

def sTokens : State := { sHome with fab := { sHome.fab with tokenWait := [({ port := 0, vc := 1, id := 0 }, { pk with opcode := 0x00, src := 7, vc := 1 })] } }

theorem witness_tokens : sTokens.fab.tokenWait = [({ port := 0, vc := 1, id := 0 }, { pk with opcode := 0x00, src := 7, vc := 1 })] ∧
    (bestTest sTokens { pk with opcode := 0x00, src := 7, vc := 1 }).2 = true := by decide +kernel
/-- A room whose best-effort work has a rate, with an empty bucket of agent 7. -/
def sSlow : State := { sTokens with
  rooms := { sTokens.rooms with rooms := [{ room1 with beRate := 1 }] }
  fab := { sTokens.fab with buckets := [{ agent := 7, room := 1, reserved := false, tokens := 0, filledAt := 0 }] } }
theorem witness_tokens_wait : (bestTest sSlow { pk with opcode := 0x00, src := 7, vc := 1 }).2 = false := by decide +kernel

/-- What a switch's own load of another home's line leaves outstanding, and its answer. -/
def askLoad : OwnReq := { n := 0, who := .transfer c0 0, engine := 0, op := .ld false, gfa := 0x0001000000200000, nb := 63, room := 1, tag := 3 }
def sAsked : State := { run0 with own := { run0.own with sent := [askLoad] } }
theorem witness_own_answer : isRunning sAsked = true ∧ askLoad.tag = pk.tag ∧ askLoad.gen = pk.w3.extractLsb' 52 4 ∧
    pk.w3.extractLsb' 56 8 ≠ 0x08 ∧ usesAnswer askLoad.who = true ∧ { pk with dst := selfAgent sAsked }.dst = selfAgent sAsked := by decide +kernel

/-- The last answer to the recall of a victim. -/
def lastTxn : Txn := { txn1 with awaited := [7], recallFor := some .victim }
def sLast : State := { sHome with dir := { entries := [{ owned7 with busy := true }], txns := [lastTxn] } }
theorem witness_last_answer : sLast.dir.txns = [lastTxn] ∧ (7#18) ∈ lastTxn.awaited ∧ lastTxn.awaited.filter (fun x => x != 7) = [] ∧
    lastTxn.cause = none ∧ lastTxn.data = none ∧ writesHeld sLast lastTxn.line = false ∧ sLast.pool.upsets = [] ∧ sLast.dir.heldWb = [] := by
  decide +kernel
/-- Agent 7 was lost while it held the line. -/
def sLost : State := { sHome with dir := { sHome.dir with lost := [(7, 0, [0x8000])] } }
theorem witness_lost_line : lostLine sLost 7 (lineKey r7.gfa) = true ∧ (entryOf sLost (lineKey r7.gfa)).isNone = true := by decide +kernel
theorem witness_quiet : Quiet sHome := ⟨rfl, by decide +kernel, rfl, by decide, by decide +kernel, rfl, rfl, by decide +kernel⟩

/-! ### Sync objects -/

def rSync : Req := { r7 with gfa := 0x28 }

def sync5 : SyncObj := { n := 5, room := 1, domain := 0, value := 3 }
def sSync : State := { sHome with sync := { objs := [sync5], waiters := [] } }

theorem witness_sync : syncObjOf sSync (syncNum rSync.gfa) = some sync5 ∧ syncAdmit sSync rSync = 0x00 ∧
    malformed rSync (.sync .ld 0 0 0) = false := by decide +kernel
theorem witness_sync_calm : Calm sSync rSync :=
  ⟨by decide +kernel, by decide +kernel, by decide +kernel, by decide +kernel, rfl, rfl, rfl, rfl, rfl, nofun, by
    intro t h; have : none = some t := (by decide +kernel : none = tileOf sSync (tileKey rSync.gfa)).trans h; cases this⟩
theorem witness_sync_bounds : (3 : Word).sle sync5.value = true ∧ (4 : Word).sle sync5.value = false ∧
    (sync5.value.extractLsb' 0 32).toNat + 1 = 4 ∧ (sync5.value.extractLsb' 0 32).toNat + 1 ≠ 5 := by decide

def waiter5 : SyncWaiter := { n := 5, req := rSync, kind := .ge, a := 9, until_ := 0 }
def sWaiter : State := { sSync with sync := { objs := [sync5], waiters := [waiter5] } }

theorem witness_sync_timeout : waiter5.until_ ≤ sWaiter.time.now ∧ syncObjOf sWaiter waiter5.n = some sync5 ∧
    (∀ e, trackOf sWaiter waiter5.req.agent waiter5.req.tag = some e → 0 < e.deliveries) := by decide +kernel

def syncLeft (i : Instr) : List Word := match exec i sSync with
  | .next t => t.sync.objs.map fun o => o.value
  | _ => []

/-- Table 6-10, by hand: 3 + 4; the old value is not 4; 3 waits for 4; 3 - 3; the fourth of four arrivals. -/
theorem test_sync_values : syncLeft (.syncAdd rSync 4) = [7] ∧ syncLeft (.syncCas rSync 4 9) = [3] ∧ syncLeft (.syncAcq rSync 4 1000) = [3] ∧
    syncLeft (.syncAcq rSync 3 1000) = [0] ∧ syncLeft (.syncArrive rSync 4 1000) = [0x100000000] := by decide +kernel

/-! ### Links -/

def portX : FabPort := { id := 3, up := true, lanes := 8, rxSeq := 5, sess := { phase := 6 } }
def portY : FabPort := { id := 9, up := true, lanes := 8, credits := List.replicate 8 40, sess := { phase := 6 } }

/-- Ports 3 and 9 lead to switches 1 and 2; agent 7 attaches to port 9. -/
def sLink : State := { run0 with
  fab := { run0.fab with ports := [portX, portY], attach := [{ agent := 7, port := 9 }] }
  regs := { run0.regs with rwl := [(0x10118, 0xE000000101000000), (0x10148, 0xE000000201000000)] } }

def flit5 : FlitHdr := { fh with seq := 5 }

/-- What the tests look at in a port after a command. -/
def portAfter (i : Instr) (n : Nat) (f : FabPort → Nat) (s : State) : Option Nat := match exec i s with
  | .next t => (fabPort t n).map f
  | _ => none

theorem witness_flits : isRunning sLink = true ∧ fabPort sLink 3 = some portX ∧ portX.up = true ∧ portX.sess.phase = 6 ∧
    flit5.intact = true ∧ flit5.seq = portX.rxSeq ∧ flit5.abort = false ∧ portX.failRun < 7 ∧ (retriesNow sLink portX).length ≤ 1000 ∧
    fh.seq ≠ portX.rxSeq ∧ (if portX.askRun.1 = fh.ack then portX.askRun.2 < 7 else True) := by decide +kernel
def resp9 : Packet := { pk with opcode := 0x70, dst := 7, len := 8 }
/-- After the flit's header: where a packet that starts in it goes, and whether that egress takes it as a cut-through. -/
def cutsOf (p : Packet) : List (Nat × Bool) := match exec (.dataFlit 3 flit5 []) sLink with
  | .next u =>
    let o : Origin := { port := 3, vc := p.vc, id := u.fab.nextOrigin }
    (entriesOf (ingressOf (newOrigin u 3 p.vc).1 o p) o).map fun e => (e.1, canCut u { portX with rxSeq := 6 } e.1 e.2.pkt)
  | _ => []
theorem witness_packet_cut : cutsOf resp9 = [(9, true)] ∧ cutsOf { resp9 with len := 30 } = [(9, true)] ∧ 25 < pktSlots { resp9 with len := 30 } ∧
    headerOk resp9 = true ∧ 1 < pktSlots resp9 ∧ headerOk { resp9 with opcode := 0xFF } = false := by decide +kernel
theorem witness_packet_kept : cutsOf { resp9 with len := 100 } = [(9, false)] := by decide +kernel
theorem witness_packet_state : ∃ u, exec (.dataFlit 3 flit5 []) sLink = .next u ∧ agentPort u 3 = false ∧ fabPort u 9 = some portY :=
  ⟨_, rfl, by decide +kernel, by decide +kernel⟩

theorem test_flit_number : portAfter (.dataFlit 3 flit5 []) 3 (fun q => q.rxSeq.toNat) sLink = some 6 := by decide +kernel
theorem test_flit_failed : portAfter (.dataFlit 3 { flit5 with intact := false } []) 3 (fun q => q.retries) sLink = some 1 := by decide +kernel
theorem test_malformed_counts : portAfter (.dataFlit 3 flit5 [.start { resp9 with opcode := 0xFF } 1]) 3 (fun q => q.malformed) sLink = some 1 := by
  decide +kernel

def sCutting : State := { sLink with fab := { sLink.fab with
  ports := [{ portX with partialIn := some ({ pkt := resp9 }, 3), cutTo := [9] }, { portY with cutting := some { q := { pkt := resp9 }, got := 3 } }] } }

theorem witness_stall : (fabPort sCutting 9).map (fun q => q.cutting) = some (some { q := { pkt := resp9 }, got := 3 }) ∧ 3 < pktSlots resp9 ∧
    (fabPort sCutting 3).map (fun q => q.cutTo) = some [9] := by decide +kernel

/-- The same ports down, a bridge port and a flex port beside them, all enabled. -/
def sDown : State := { sLink with
  fab := { sLink.fab with ports := [{ portX with up := false }], brg := [{ id := 2 }], flex := [{ id := 2 }] }
  regs := { sLink.regs with rwl := [(0x10118, 0xE000000101000000), (0x10A10, 0x8000000000000000), (0x10C80, 0x8000000000000000)] } }

theorem witness_fabric_down : fabEn sDown 3 = true ∧ fabTrainable sDown 3 = 8 ∧ (fabPort sDown 3).map (fun q => q.up) = some false := by
  decide +kernel
theorem witness_bridge_flex_down : brgEn sDown 2 = true ∧ 0 < brgTrainable sDown 2 ∧ (brgPort sDown 2).map (fun q => q.up) = some false ∧
    flexEn sDown 2 = true ∧ 0 < flexTrainable sDown 2 ∧ (flexPort sDown 2).map (fun q => q.up) = some false := by decide +kernel
theorem witness_ports_up : (fabPort sLink 9).map (fun q => q.up) = some true ∧
    (brgPort { sDown with fab := { sDown.fab with brg := [{ id := 2, up := true }] } } 2).map (fun q => q.up) = some true := by decide +kernel
theorem test_port_comes_up : portAfter (.linkUp 3 4) 3 (fun q => q.lanes) sDown = some 4 ∧
    portAfter (.linkUp 3 8) 3 (fun q => q.sess.phase) sDown = some 1 := by decide +kernel
theorem test_port_goes_down : portAfter (.portDown 3) 3 (fun q => q.downs) sLink = some 1 := by decide +kernel

theorem witness_notice : isRunning sTxn = true ∧ sTxn.dir.txns = [txn1] ∧ txn1.kind = .inv ∧ txn1.group = none := by decide +kernel
theorem witness_tile_recall : tileOf sHome (tileKey r7.gfa) = some tile1 ∧ tile1.unrecalled = false ∧
    tileRecalling { sHome with maps := { sHome.maps with tiles := [{ tile1 with unrecalled := true }] } } (tileKey r7.gfa) = false := by
  decide +kernel

/-- An extent whose tile is Unrecalled; which agents are switches' own is a free value of Config. -/
def sUnrecalled : State := { sHome with maps := { sHome.maps with tiles := [{ tile1 with unrecalled := true }] } }
theorem witness_recall_starts : Config.switchAgent 7 = true ∨ ∀ k < 1024, groupAwaited sUnrecalled (32 * 1024 + k) none ≠ [] := by
  cases h : Config.switchAgent 7 with
  | true => exact .inl rfl
  | false =>
    refine .inr fun k hk => List.ne_nil_of_mem (a := 7) ?_
    have hl : (32 * 1024 + k) / 32768 = 1 := by omega
    have hx : extentOf sUnrecalled 1 = some ext1 := by decide +kernel
    have hs : ((7 : AgentId) != selfAgent sUnrecalled) = true := by decide +kernel
    have hd : (7 : AgentId) ∈ domainAgents sUnrecalled ext1.room ext1.domain := by decide +kernel
    simp only [groupAwaited, hl, hx, List.mem_filter, Bool.and_eq_true]
    exact ⟨hd, ⟨rfl, hs⟩, by rw [h]; rfl⟩
theorem witness_own_notice : (let f : FlushEntry := { opcode := 0x00, tag := 3, epoch := 0, ocls := 0, home := 1 }
    f.opcode.toNat < 0x38 ∧ askLoad.tag = f.tag ∧ askLoad.epoch = f.epoch ∧ isHome sAsked (homeOf askLoad.gfa) = false ∧
    (∀ q ∈ sAsked.own.sent, q.flushed = false)) := by decide +kernel

/-! ### Moves, maps and trays -/

def toTray : Residence := { tier := 1, unit := 4, lineAddressed := false }
def booked1 : Tile := { tile1 with mig := .booked, dest := some toTray }
def withTile (y : Tile) : State := { sHome with maps := { sHome.maps with tiles := [y] } }

theorem witness_move : tileOf (withTile booked1) (tileKey r7.gfa) = some booked1 ∧ isRetired (withTile booked1) 0x09 0 = false ∧
    (withTile booked1).maps.tiles.all (fun z => z.porter != some 0) = true ∧ isRetired (withTile booked1) 0x09 63 = false := by decide +kernel
/-- Room 1 with another switch as map holder. -/
def elsewhere (s : State) : State := { s with rooms := { s.rooms with rooms := [{ room1 with holder := 1 }] } }
def closing1 : Tile := { booked1 with mig := .closing, porter := some 0 }
def commit1 : Tile := { booked1 with mig := .committing }
def msg1 : MapMsg := { src := 0x3FE01, room := 1, tag := 0, extent := 0x200000, entries := [0x0001000000000001] }

theorem witness_move_close : tileOf (withTile closing1) (tileKey r7.gfa) = some closing1 ∧
    holderOf (elsewhere (withTile closing1)) (tileRoom (elsewhere (withTile closing1)) (tileKey r7.gfa)) ≠ selfId (elsewhere (withTile closing1)) := by
  decide +kernel
theorem witness_movers : moverIn (withTile booked1) 32 .booked = some (headMover booked1) ∧ (withTile booked1).pool.upsets = [] ∧
    (∀ y ∈ moversOf (withTile booked1) 32, y.mig = .settled ∨ y.mig = .booked) ∧ moverIn (withTile closing1) 32 .closing = some (headMover closing1) ∧
    moverIn (withTile closing1) 32 .committing = none ∧ (headMover closing1).tag = none ∧ (freeSlot (withTile closing1) 519).isSome = true ∧
    mapTarget (elsewhere (withTile closing1)) 1 false ≠ selfId (elsewhere (withTile closing1)) ∧
    mapTarget (elsewhere (withTile closing1)) 1 true ≠ selfId (elsewhere (withTile closing1)) := by decide +kernel
theorem witness_mover_moving : (let y : Tile := { booked1 with mig := .moving, porter := some 0 }
    moverIn (withTile y) 32 .moving = some (headMover y) ∧ moverIn (withTile y) 32 .closing = none) := by decide +kernel
theorem witness_mover_timer : (let y : Tile := { commit1 with tag := some 0x81E00 }
    moverIn (withTile y) 32 .committing = some (headMover y) ∧ (headMover y).tag = some 0x81E00 ∧ moverIn (withTile y) 32 .disputed = none ∧
    (headMover commit1).work = none ∧ moverIn (withTile commit1) (entryTile msg1 0x0001000000000001) .committing = some (headMover commit1)) := by decide +kernel
theorem witness_verdict : tileOf (withTile commit1) (entryTile msg1 0x0001000000000001) = some commit1 ∧
    (0x0001000000000001 : Word).extractLsb' 48 16 = commit1.e + 1 ∧ (0x0001000000000001 : Word).extractLsb' 0 2 = 1 := by decide +kernel
def recKept : State := { sHome with maps := { sHome.maps with recs := [{ tile := 32, epoch := 1, recorded := true, entry := 0x0001000000000001 }] } }
theorem witness_map_holder : isMapHolder sHome msg1.room = true ∧ recOf sHome (entryTile msg1 0x0001000000000001) 0x0001000000000001 = none ∧
    (recOf recKept (entryTile msg1 0x0001000000000001) 0x0001000000000001).isSome = true ∧ sHome.ledger.target ≠ 1 := by decide +kernel
theorem test_query_refuses_then_commit : (match exec (.mapQuery msg1) sHome with
    | .next t => (match exec (.mapCommit msg1) t with
      | .next u => u.fab.outbox.map fun p => (p.opcode, p.data.head?)
      | _ => [])
    | _ => []) = [(0xF3, some 2), (0xF1, some 2)] := by decide +kernel

theorem witness_committing_timer : commit1.since + 20000 ≤ 20000 ∧ tileOf (elsewhere (withTile commit1)) (tileKey r7.gfa) = some commit1 := by
  decide +kernel

def tray4 : Tray := { n := 4, present := true, lost := false, timesLost := 0, t1 := none, t2 := none }
def sTray : State := { run0 with
  maps := { run0.maps with trays := [tray4], evac := [(5, 0)] }
  regs := { run0.regs with rwl := [(0x20020, 0x8000000000000000)] } }

theorem witness_trays : trayEn sTray 4 = true ∧ trayOf sTray 4 = some tray4 ∧ tray4.present = true ∧ tray4.lost = false ∧ NoWaiters sTray ∧
    sTray.maps.evac.any (fun x => x.1 == 5) = true ∧
    sTray.maps.tiles.all (fun t => t.res.tier != 0 || t.res.unit != 5 || t.lost) = true := by
  refine ⟨?_, ?_, ?_, ?_, ⟨rfl, rfl, rfl⟩, ?_, ?_⟩ <;> decide +kernel

theorem witness_trays_quiet : Quiet { sTray with maps := { sTray.maps with evac := [] } } ∧ mirrorTarget run0 = run0.ledger.target ∧
    (∀ m ∈ movers sTray, m.mig = .settled ∧ m.dest = none) :=
  ⟨⟨rfl, by decide, rfl, by decide, by decide +kernel, rfl, rfl, by decide +kernel⟩, by decide +kernel, by decide +kernel⟩

def roomUnified : Room := { room1 with unified := true }
def stream6 : Stream :=
  { e := 6, room := 1, layers := [{ first := 0x200000, count := 1, need := 1, release := 0, skipped := false }], window := 1, passes := 1
    schedule := true, obj := 0, start := 0, period := 100 }
def sStream : State := { run0 with
  rooms := { run0.rooms with rooms := [roomUnified] }
  maps := { run0.maps with streams := [stream6] } }

theorem witness_intervals : (roomOf sStream 1).map (fun x => x.unified) = some true ∧
    (streamOf sStream 6).map (fun v => (v.schedule, v.layers.map (fun l => l.rel), v.passes, v.start)) = some (true, [0], 1, 0) := by decide +kernel

/-! ### Epochs -/

def slice2 : Slice := { slice1 with switch := 2 }
def map2 : EpochMap := { room := 1, epoch := 2, holder := 1, slices := [slice1, slice2], paths := [], twins := [] }
def change2 (step : Nat) : Commit := { e := none, epoch := 2, slices := [slice1, slice2], paths := [], step := step, acked := [0] }
def withRoom (x : Room) (s : State) : State := { s with rooms := { s.rooms with rooms := [x] } }
def memberRoom : Room := { room1 with holder := 1 }

theorem witness_epoch_install : (memberRoom.holder = map2.holder ∧ map2.holder ≠ selfId sHome ∧ (withRoom memberRoom sHome).fab.unrouted = []) ∧
    roomOf (withRoom memberRoom sHome) 1 = some memberRoom ∧ memberRoom.commit = none ∧ (change2 1).epoch = map2.epoch := by decide +kernel
theorem witness_epoch_ack : (roomOf (withRoom { room1 with commit := some (change2 1) } sHome) 1).map (fun x => x.holder) = some (selfId sHome) ∧
    (change2 1).slices ≠ [] ∧ room1.waiting = none ∧ (commitMembers sHome room1 (change2 1)).all (fun m => [2, 0].contains m) = true ∧
    (commitMembers sHome room1 { change2 1 with acked := [] }).all (fun m => [2].contains m) = false := by decide +kernel
def drainRoom : Room := { memberRoom with current := 2, older := some 1, old := [slice1], cur := [slice1, slice2] }
theorem witness_drain : inFlight (withRoom drainRoom sHome) 1 1 = 0 ∧
    drainRoom.currentAt + tDead (withRoom drainRoom sHome) ≤ 8000 ∧ drainRoom.holder ≠ selfId sHome ∧ drainRoom.cur ≠ [] ∧
    ((selfId sHome :: (drainRoom.old ++ drainRoom.cur).map (fun y => y.switch)).eraseDups).all (fun m => [0].contains m) = false := by
  decide +kernel
theorem test_epoch_acks : (match exec (.epochAck 1 2 2) (withRoom { room1 with commit := some (change2 1) } sHome) with
    | .next t => (roomOf t 1).map fun x => (x.current, x.older)
    | _ => none) = some (2, some 1) := by decide +kernel

/-! ### Descriptors at work -/

/-- A descriptor: the opcode with its bits, and values at their bytes. -/
def desc (op : Nat) (l : List (Nat × Nat)) : BitVec 512 := BitVec.ofNat 512 (l.foldl (fun n f => n + f.2 * 2 ^ (8 * f.1)) op)

/-- An accepted entry of ring 1 with that descriptor. -/
def job (op : Nat) (l : List (Nat × Nat)) : Entry := { n := 4, desc := desc op l, ring := 1, st := .accepted, tA := 0, promise := 0 }

def atWork (en : Entry) (s : State) : State := { s with ledger := { s.ledger with entries := [en] } }

/-- Nothing is brought from outside. -/
def noCells : Cells := { bytes := [], status := [] }

theorem witness_can_run : (List.range 0x76).all (fun op => runs (atWork (job op []) sHome) (job op []) op) = true ∧
    journalFull (atWork (job 0x20 []) sHome) = false ∧
    journalFull { atWork (job 0x21 []) sHome with ledger := { entries := [job 0x21 []], journalUsed := journalCapacity * 64 } } = true := by
  decide +kernel

def ring1 : Ring := { id := 1, enabled := true, d := 4, c := 4 }
def withRing (r : Ring) (s : State) : State := { s with ledger := { s.ledger with rings := [r] } }
def setRing : Entry := job 0x01 [(16, 3), (21, 4), (22, 4)]

theorem witness_ring_set : descField setRing.desc 18 1 = 0 ∧ ringAllowed (atWork setRing sHome) setRing = true ∧
    ringSettable (atWork setRing sHome) (ringRoom (atWork setRing sHome) 3) setRing.desc = true ∧
    ringSettable (atWork setRing sHome) 0 (desc 0x01 [(16, 0)]) = false ∧
    ringAllowed (atWork setRing sHome) (job 0x01 [(2, 1), (16, 3)]) = false := by decide +kernel
theorem witness_ring_disable : (let s := atWork (job 0x01 [(16, 1), (18, 1)]) (withRing ring1 sHome)
    ringAllowed s (job 0x01 [(16, 1), (18, 1)]) = true ∧ ringOf s 1 = some ring1 ∧ ring1.disabling = none) := by decide +kernel
theorem test_ring_set : (match exec (.ringSet 4) (atWork setRing sHome) with
    | .next t => (t.ledger.rings.map fun r => (r.id, r.enabled, r.d), t.ledger.entries.map fun y => y.result.map fun f => (f.status, f.r16))
    | _ => ([], [])) = ([(3, true, 4)], [some (0, 1)]) := by decide +kernel

/-- A compose record of zeros, brought from outside for a descriptor of room 0x00. -/
def zeros256 : Cells := { bytes := (List.range 256).map fun i => (0x5000 + i, 0), status := [] }
def stageJob : Entry := job 0x20 [(16, 1), (17, 2), (18, 2), (20, 0x5000)]
def commitJob : Entry := job 0x20 [(16, 1), (17, 3), (18, 2), (20, 0x5000)]

theorem witness_compose : entryRoom stageJob = 0 ∧ roomOf (atWork stageJob sHome) 1 = some room1 ∧ room1.holder = selfId sHome ∧
    room1.waiting = none ∧ stageJob.replayed = false ∧ descField stageJob.desc 17 1 / 2 % 2 = 1 ∧ descField stageJob.desc 17 1 % 2 = 0 ∧
    descField commitJob.desc 17 1 % 2 = 1 ∧
    (listRead (atWork stageJob sHome) stageJob zeros256 (descWord stageJob.desc 20) 256).status = 0x00 := by decide +kernel
theorem witness_compose_commit : (let s := withRoom { room1 with cur := [slice1, slice2] } sHome
    s.fab.unrouted = [] ∧ (roomOf s 1).map (fun y => (y.commit, y.older, y.cur.any fun w => w.switch != selfId s)) = some (none, none, true)) := by
  decide +kernel
/-- Room 1 with this switch's own agent in its domain, for the work of descriptors. -/
def sOwn : State := { sHome with rooms := { sHome.rooms with domains := [{ room := 1, idx := 0, agents := [7, 8, selfAgent run0] }] } }
/-- The answers to the own work of entry 4 for lines `l` have come. -/
def answered (l : List Nat) (s : State) : State := { s with own := { s.own with got := l.map fun k =>
  { who := .work 4, isRead := true, snap := false, gfa := lineGfa k, status := 0x00, data := readBytes s.pool.mem (k * 64) 64, at_ := 0 } } }
theorem witness_mirror_stands : MirrorStands sHome ∧ sHome.own.need = [] := ⟨⟨by decide +kernel, by decide +kernel⟩, rfl⟩
def domainJob : Entry := job 0x23 [(2, 1), (16, 0x200000), (24, 2), (28, 1), (29, 3)]
theorem witness_domain_set : fromRoom domainJob 1 = true ∧ fromRoom domainJob 2 = false ∧
    (listRead (answered [0x8000] (atWork domainJob sOwn)) domainJob noCells (descWord domainJob.desc 16) (4 * 2)).status = 0x00 ∧
    (atWork domainJob sOwn).rooms.changes = [] := by decide +kernel
theorem test_nop_done : (match exec (.nop 4) (atWork (job 0 []) sHome) with
    | .next t => t.ledger.entries.map fun y => y.result.map fun f => f.status
    | _ => []) = [some 0] := by decide +kernel

def bindJob : Entry := job 0x21 [(2, 1), (16, 0x400000), (24, 1), (28, 1), (30, 0)]
theorem witness_extent_bind : descField bindJob.desc 24 4 = 1 ∧ fromRoom bindJob 1 = true ∧ isHome sHome (homeOf (descWord bindJob.desc 16)) = true ∧
    isHome sHome 0 = true ∧ extentOf (atWork bindJob sHome) 2 = none ∧ 32 ≤ quotaFree (atWork bindJob sHome) 1 0 ∧
    (placeOn (atWork bindJob sHome) 1 0 32).isSome = true ∧ (∀ k < 32, tileOf (atWork bindJob sHome) (2 * 32 + k) = none) ∧
    extentOf (atWork bindJob sHome) 1 ≠ none := by decide +kernel
def revokeJob : Entry := job 0x22 [(2, 1), (16, 0x200000), (24, 1)]
theorem witness_extent_revoke : (let s := atWork revokeJob (withEntries [] { sHome with maps := { sHome.maps with tiles := [] } })
    revokeKeys revokeJob.desc = [1] ∧ extentOf s 1 = some ext1 ∧ ext1.st = .bound ∧ entryRoom revokeJob = ext1.room ∧ s.maps.tiles = [] ∧
    revokeJob.pendingWork = 0 ∧ isHome s (homeOf (descWord (desc 0x22 [(16, 2 ^ 48)]) 16)) = false) := by decide +kernel
def clearJob : Entry := job 0x25 [(2, 1), (16, 0x200000), (24, 1)]
theorem witness_line_clear : (let s := atWork clearJob { sHome with pool := { mem := [], marks := [(0x8000, .ownerLost)] } }
    extentOf s (extKey 0x200000) = some ext1 ∧ ext1.st ≠ .draining ∧ markOf s (lineKey 0x200000) = some .ownerLost ∧
    Memory.wf s.pool.mem = true ∧ markOf sHome (lineKey 0x200000) ≠ some .ownerLost) := by decide +kernel
def cutJob : Entry := job 0x26 [(2, 1), (16, 0x200000), (24, 1)]
theorem witness_snap_cut : cutJob.replayed = false ∧ snapKeys cutJob.desc = [1] ∧ ext1.room = entryRoom cutJob ∧
    overdraft (atWork cutJob sHome) 1 = 0 ∧
    (appliedOf { sHome with ledger := { sHome.ledger with applied := [(1, 0, 5, 6)] } } { cutJob with replayed := true }) = some (5, 6) := by
  decide +kernel
theorem witness_snap_room : (let s := atWork cutJob sHome
    let v := reclaimVersions { s with maps := { s.maps with
      versions := s.maps.versions ++ [{ cut := s.maps.nextCut, tC := 0, exts := [1] }], nextCut := 2 } }
    (v.maps.versions.filter fun z => z.exts.contains 1).length < 16) := by decide +kernel
def openJob : Entry := job 0x27 [(2, 1), (16, 0x200000), (24, 2), (28, 9), (32, 10)]
def version9 : Version := { cut := 9, tC := 0, exts := [1] }
theorem witness_snap_open : (let s := atWork openJob { sHome with maps := { sHome.maps with versions := [version9] } }
    versionOf s (BitVec.ofNat 32 (descField openJob.desc 28 4)) = some version9 ∧ (freeHandle s).isSome = true ∧
    (snapKeys openJob.desc).filter (fun k => version9.exts.contains k) = [1] ∧ descField openJob.desc 38 1 % 2 = 0) := by decide +kernel
def closeJob : Entry := job 0x28 [(2, 1), (36, 5)]
theorem witness_snap_close : (sSnap.maps.handles.any fun y => y.h == BitVec.ofNat 16 (descField closeJob.desc 36 2) && y.room == entryRoom closeJob)
    = true ∧ (sHome.maps.handles.any fun y => y.h == 5 && y.room == 1) = false := by decide +kernel
theorem witness_handle_expiry : (∃ y ∈ sSnap.maps.handles, y.h = 5 ∧ y.until_ ≤ 100) ∧ (∀ y ∈ sSnap.maps.handles, y.h = 5 → 99 < y.until_) := by
  decide +kernel
def syncJob : Entry := job 0x29 [(2, 1), (16, 7), (20, 1), (24, 1), (25, 2)]
theorem witness_sync_bind : descField syncJob.desc 26 1 % 2 = 0 ∧ descField syncJob.desc 20 4 = 1 ∧ fromRoom syncJob 1 = true ∧
    syncObjOf (atWork syncJob sHome) 7 = none ∧ (syncObjOf sSync 5).isSome = true := by decide +kernel
/-- A move of the tile to controller 3 of tier 0. -/
def moveJob : Entry := job 0x2B [(2, 1), (16, 0x200000), (24, 1), (28, 0), (29, 3)]
theorem witness_migrate : moveJob.pendingWork = 0 ∧ descField moveJob.desc 30 1 % 8 = 0 ∧ descField moveJob.desc 29 1 ≠ 0xFF ∧
    tileRoom (atWork moveJob sHome) 32 = entryRoom moveJob ∧ tileKey (descWord moveJob.desc 16) = 32 ∧
    (bookMove (atWork moveJob sHome) 32 0 (some 3) (some 4)).isSome = true := by decide +kernel
def streamJob : Entry := job 0x2C [(2, 1), (16, 0x200000), (24, 1), (28, 2)]
theorem witness_stream : streamOf (atWork streamJob sHome) 4 = none ∧
    (listRead (answered [0x8000] (atWork streamJob sOwn)) streamJob noCells 0x200000 32).status = 0x00 ∧
    isLack (listRead (atWork streamJob sOwn) streamJob noCells 0x0001000000200000 32).status = true ∧ linesOf 0x0001000000200000 32 = [0x40000008000] ∧
    isHome sOwn (homeOf (lineGfa 0x40000008000)) = false ∧ extentOf sOwn (0x40000008000 / 32768) = none := by decide +kernel
theorem witness_stream_failed : (let s := answered [0x8000] (atWork streamJob sOwn)
    let t := { s with own := { s.own with got := s.own.got.map fun y => { y with status := 0x03 } } }
    isLack (listRead t streamJob noCells 0x200000 32).status = false ∧ (listRead t streamJob noCells 0x200000 32).status ≠ 0x00) := by decide +kernel
theorem witness_stream_home : (let s := answered [0x8000] (atWork streamJob sOwn)
    foreignLayer s streamJob (readLayer s streamJob (((listRead s streamJob noCells 0x200000 32).bytes.drop (32 * 0)).take 32)) = false) ∧
    (let s := answered [0x8000] (atWork streamJob { sOwn with
      maps := { sOwn.maps with exts := [{ ext1 with room := 2 }] } })
    foreignLayer s streamJob { first := 0x200000, count := 1, need := 0, release := 0, skipped := false } = true) := by
  decide +kernel
theorem witness_tile_format : descField (desc 0x2D [(16, 0x200000), (24, 1)]) 24 4 = 1 ∧ tileOf sHome (tileKey 0x200000) = some tile1 := by
  decide +kernel

/-! ### Rings and entries -/

def sRing : State := withRing ring1 run0
def readyRing : Ring := { ring1 with tail := 2 }
def sFetch : State := { withRing readyRing run0 with
  ledger := { rings := [readyRing], mirrorRead := true }, mgmt := { run0.mgmt with link := true } }

theorem witness_doorbell : ring1.fabric = (some 0 : Option Nat).isNone ∧ some 0 = some ring1.fn ∧ ring1.tail = ring1.h ∧
    ring1.tailMirrored = ring1.h ∧ 2 ^ ring1.d < (17 - ring1.h : BitVec 32).toNat ∧ (16 - ring1.h : BitVec 32).toNat ≤ 2 ^ ring1.d ∧
    ringOf sRing 1 = some ring1 := by decide +kernel
theorem witness_fetch : mayFetch sFetch readyRing = true ∧ mayFetch sRing ring1 = false ∧ descSeq (desc 0 []) = readyRing.h ∧
    descSeq (desc 0 [(4, 1)]) ≠ readyRing.h ∧ ringOf sFetch 1 = some readyRing ∧ descClass (clampDesc sFetch 0 (stamp sFetch 18) (desc 0 [(3, 2)])).d = 2 := by
  decide +kernel
/-- A fabric ring of room 1, with its slots at another home. -/
def farRing : Ring := { readyRing with id := 16, fabric := true, room := 1, dbase := 0x0001000000200000 }
theorem witness_fabric_fetch : (let s := { sFetch with rooms := sHome.rooms, ledger := { sFetch.ledger with rings := [farRing] } }
    mayFetch s farRing = true ∧ isHome s (homeOf (farRing.dbase + BitVec.ofNat 64 (64 * (farRing.h.toNat % 2 ^ farRing.d)))) = false) := by
  decide +kernel
theorem witness_stale : (ringOf (withRing { ring1 with tail := 1, tailMirrored := 1, staleAt := some 0 } run0) 1).map (fun r =>
    (r.staleAt, r.tail == r.tailMirrored, (r.tail - r.h).toNat)) = some (some 0, true, 1) := by decide +kernel
theorem test_head_past_the_records : (match exec (.headDoorbell 1 (some 0) 3) sRing with
    | .next t => t.ledger.rings.map fun r => (r.head, r.dbIgnored)
    | _ => []) = [(0, 1)] := by decide +kernel
theorem test_stale_slot_stops : (match exec (.fetchResume 1 [desc 0 [(4, 1)]]) sFetch with
    | .next t => t.ledger.rings.map fun r => (r.stale, r.h)
    | _ => []) = [(1, 0)] := by decide +kernel

def new4 : Entry := { job 0x00 [] with st := .mirroring }
def withTarget (n : Nat) (en : Entry) (s : State) : State := { s with ledger := { s.ledger with rings := [ring1], entries := [en], target := n } }

theorem witness_mirror_ack : ledgerEntry (withTarget 2 new4 run0) 4 = some new4 ∧ refusedBefore (withTarget 2 new4 run0) new4 = false ∧
    refusedBefore { run0 with ledger := { run0.ledger with entries :=
      [{ new4 with n := 3, result := some { status := 0x02 } }, { new4 with desc := desc 0 [(4, 1)] }] } } { new4 with desc := desc 0 [(4, 1)] } = true := by
  decide +kernel
theorem witness_no_mirror : twinReachable run0 = false ∧ ledgerExtReachable run0 = false := by decide +kernel
/-- The ledger extent on tray 4, which is present. -/
def sExtent : State := { run0 with
  maps := { run0.maps with trays := [tray4] }
  regs := { run0.regs with rwl := [(0x32018, 0x8400000000000000)] }
  mgmt := { run0.mgmt with link := true } }
def doneF : Final := { status := 0x00 }
def held4 : Entry := { job 0x00 [] with st := .resultHeld, result := some doneF }
theorem witness_extent_target : mirrorTarget (withTarget 2 held4 sExtent) = 2 ∧ sExtent.mgmt.link = true := by decide +kernel
theorem witness_progress : (let en := { job 0x2B [] with desc := desc 0x402B [(3, 1)], started := true, st := .running }
    let s := withTarget 2 en run0
    descBit en.desc 14 = true ∧ descClass en.desc ≠ 0 ∧ openFinals s 1 = 1 ∧ (ring1.nw - ring1.head).toNat + openFinals s 1 < 2 ^ ring1.c ∧
    2 ^ 0 - 1 ≤ (ring1.nw - ring1.head).toNat + openFinals s 1 ∧ en.progAt + 1000 * ring1.pint ≤ 1000000) := by decide +kernel
theorem witness_final : recordFits ring1 = true ∧ doneF.progress ≤ 10000 ∧ held4.recorded = false ∧ held4.missed = false ∧ 0 ≤ held4.promise ∧
    run0.boot.roomResets = [] ∧ doneObj held4.desc = none ∧ descBit held4.desc 13 = false := by decide +kernel
theorem witness_missed : (job 0x00 []).missed = false ∧ (job 0x00 []).promise < 1 ∧ descClass (job 0x00 []).desc ≠ 2 ∧
    (job 0x00 []).st ≠ .mirroring := by decide +kernel

/-! ### Caravans -/

def withMem (l : List Host.Cell) (s : State) : State := { s with pool := { s.pool with mem := l } }

/-- A caravan record at 0x200000 with one stage, the built-in of kind 1 (Table 10-6). -/
def recordCells : List Host.Cell := [(0x200000, 1), (0x200040, 1), (0x200047, 0x80)]
def sRecord : State := withMem recordCells sOwn
def openVan : Entry := job 0x40 [(2, 1), (16, 0x200000)]
/-- An entry that is not tested yet. -/
def fresh (en : Entry) : Entry := { en with st := .mirroring }
def isPlaced (s : State) (en : Entry) : Bool :=
  match readCaravan s en noCells with
  | .inl r => (placeCaravan s en r.1).isSome
  | .inr _ => false
def cannotPlace (s : State) (en : Entry) : Bool :=
  match readCaravan s en noCells with
  | .inl r => (placeCaravan s en r.1).isNone
  | .inr _ => false

theorem witness_caravan_test : (let s := answered [0x8000, 0x8001] (atWork (fresh openVan) sRecord)
    untested s (fresh openVan) 0x40 = true ∧ s.own.need = [] ∧ refusedBefore s (fresh openVan) = false ∧
    isPlaced s (fresh openVan) = true ∧ cannotPlace s (fresh openVan) = false) ∧
    cannotPlace (answered [0x8000, 0x8001] { atWork (fresh openVan) sRecord with
      rooms := { sRecord.rooms with rooms := [{ room1 with cur := [{ slice1 with clusters := 0 }] }] } }) (fresh openVan) = true := by
  decide +kernel
theorem witness_caravan_open : (listRead (answered [0x8000, 0x8001] (atWork openVan sRecord)) openVan noCells 0x200000 64).status = 0x00 ∧
    leAt (listRead (answered [0x8000, 0x8001] (atWork openVan sRecord)) openVan noCells 0x200000 64).bytes 0 2 = 1 ∧
    leAt (listRead (answered [0x8000, 0x8001] (atWork openVan sOwn)) openVan noCells 0x200000 64).bytes 0 2 ≠ 1 ∧
    isPlaced (answered [0x8000, 0x8001] (atWork openVan sRecord)) openVan = true := by decide +kernel
def readFails (s : State) (en : Entry) : Bool :=
  match readCaravan s en noCells with
  | .inl _ => false
  | .inr r => !isLack r.1
theorem witness_caravan_unread : readFails (answered [0x8000, 0x8001] (atWork openVan sOwn)) openVan = true ∧
    readFails (answered [0x8000, 0x8001] (atWork openVan sRecord)) openVan = false := by decide +kernel

def idleVan : Caravan := { van0 with run := none }
def runVan : Entry := job 0x41 [(2, 1), (16, 0), (20, 64), (24, 0x200000), (32, 128), (40, 0x200000)]
theorem witness_caravan_run : (let s := atWork runVan (withVan idleVan sOwn)
    s.engine.caravans = [idleVan] ∧ idleVan.id = descField runVan.desc 16 1 ∧ fromRoom runVan idleVan.room = true ∧
    runBefore s runVan idleVan.id = false ∧ (idleVan.stages.any fun g => g.clusters.isEmpty) = false ∧
    ((atWork runVan sOwn).engine.caravans.any fun v => v.id == 0 && fromRoom runVan v.room) = false) := by decide +kernel
theorem witness_run_stands : RunStands idleVan ∧ RunStands van0 := ⟨⟨by decide +kernel, by decide +kernel⟩, ⟨by decide +kernel, by decide +kernel⟩⟩
theorem witness_stands : Stands (atWork runVan sOwn) 4 := ⟨by decide +kernel, by decide +kernel, runVan, by decide +kernel, rfl⟩
theorem witness_caravan_close : (let s := atWork (job 0x42 [(2, 1)]) (withVan idleVan sOwn)
    s.engine.caravans = [idleVan] ∧ idleVan.id = descField (job 0x42 [(2, 1)]).desc 16 1 ∧
    (s.ledger.entries.all fun y => descOp y.desc != 0x41) = true) ∧
    descField runVan.desc 16 1 = idleVan.id ∧ { runVan with n := 5, st := EntrySt.running }.result = none := by decide +kernel
theorem witness_source_reader : (let s := withVan van0 sOwn
    caravanOf s 0 = some van0 ∧ van0.stages[0]? = some stage0 ∧ run1.ended = false ∧ run1.nextRec * run1.recSize < run1.srcLen ∧
    poolUse van0 0 0 (clusterFor stage0 (BitVec.ofNat 32 run1.nextRec)) < stage0.depth ∧
    (let r := readNow s run1.e (stage0.clusters.headD 519) van0.room (run1.src + BitVec.ofNat 64 (run1.nextRec * run1.recSize))
       (min run1.recSize (run1.srcLen - run1.nextRec * run1.recSize))
     r.2.status = 0x00 ∧ caravanOf r.1 0 = some van0) ∧
    (let v : Caravan := { van0 with run := some { run1 with src := 0x0001000000200000 } }
     let r := readNow (withVan v sOwn) run1.e (stage0.clusters.headD 519) v.room 0x0001000000200000 64
     isLack r.2.status = true ∧ caravanOf r.1 0 = some v)) := by decide +kernel
theorem test_caravan_closes : (match exec (.caravanClose 4) (atWork (job 0x42 [(2, 1)]) (withVan idleVan sOwn)) with
    | .next t => some (t.engine.caravans.length)
    | _ => none) = some 0 := by decide +kernel

/-! ### Collectives -/

def par5 : CollParams :=
  { lead := 0, ctx := 5, round := 1, op := 0, resultType := 0, rootMember := 0, count := 16, resultGfa := 0, floor := 0, cls := 1, promise := 1000 }
def ctx5 : Context :=
  { lead := 0, ctx := 5, room := 1, members := [(7, 0), (8, 1)], total := 2, nSwitches := 1, roots := [0], type := 0, chunkBytes := 64, k := 4
    go := none, clusters := [0], coded := false, resultTable := 0, tables := 0, group := 0x10000 }
def round5 : Round := { params := par5, accepted := true, kRun := 4 }
def withCtx (c : Context) (s : State) : State := { s with coll := { ctxs := [c] } }
def coll7 : CollPkt :=
  { src := 7, lead := 0, ctx := 5, round := 1, chunk := 0, member := 0, first := 0, poison := false, data := List.replicate 64 0 }
def live5 : Context := { ctx5 with round := some round5 }

def openColl : Entry := job 0x48 [(2, 1), (16, 5), (20, 1), (22, 2), (26, 0), (32, 0x200000), (40, 0x200000), (52, 1)]
def sTable : State := withMem [(0x200000, 7)] sOwn
theorem witness_coll_open : (let s := answered [0x8000] (atWork openColl sTable)
    s.coll.ctxs = [] ∧ (ownRead s 4 0x200000 8).status = 0x00 ∧ (ownRead s 4 0x200000 0).status = 0x00 ∧
    readTable8 s 1 2 1 (ownRead s 4 0x200000 8).bytes [] = ([(7, 0)], true) ∧
    (readTable8 s 1 2 1 [9, 0, 0, 0, 0, 0, 0, 0] []).2 = false ∧ descField openColl.desc 53 1 ≠ 1 ∧
    (placeStage (clustersFor s 1 (some 4)) 1 false []).isSome = true ∧ (placeStage [] 1 false []).isSome = false) := by decide +kernel
def runColl : Entry := { job 0x49 [(2, 1), (16, 5), (24, 16)] with st := .mirroring }
theorem witness_coll_run : (let s := atWork runColl (withCtx { ctx5 with nSwitches := 2 } sOwn)
    waitsToReserve s runColl = true ∧ ctx5.lead = selfId s ∧ ctx5.ctx.toNat = descField runColl.desc 16 2 ∧ fromRoom runColl ctx5.room = true ∧
    ctx5.rounds + 1 < 2 ^ 31 ∧ ctx5.closing = none ∧ reserving ctx5 = none ∧ roundAt ctx5 (BitVec.ofNat 32 (ctx5.rounds + 1)) = none ∧
    (reserving { ctx5 with waiting := [{ round5 with accepted := false }] }).isSome = true) := by decide +kernel
theorem witness_coll_close : (let en := job 0x4A [(2, 1), (16, 5)]
    ctx5.lead.toNat = descField en.desc 18 2 ∧ ctx5.ctx.toNat = descField en.desc 16 2 ∧ fromRoom en ctx5.room = true ∧
    ((atWork en (withCtx ctx5 sOwn)).ledger.entries.all fun y => descOp y.desc != 0x49) = true) := by decide +kernel
theorem witness_coll_unknown : contextOf sOwn par5.lead par5.ctx.toNat = none ∧ contextOf sOwn coll7.lead coll7.ctx.toNat = none ∧
    sOwn.fab.inbox = [] := by decide +kernel
theorem witness_coll_reserve_no : contextOf (withCtx ctx5 sOwn) par5.lead par5.ctx.toNat = some ctx5 ∧
    testShare (withCtx ctx5 sOwn) ctx5 par5 (stamp (withCtx ctx5 sOwn) 18) = .inr (7, 0) := by
  refine ⟨by decide +kernel, ?_⟩
  have h : (withCtx ctx5 sOwn).hlth.state == .retiring || mirrorTarget (withCtx ctx5 sOwn) == 0 := by decide +kernel
  simp only [testShare, h, if_true]
def sReady : State := { withTarget 2 held4 sExtent with rooms := sOwn.rooms }
/-- A run of no elements, for the leaf of no member. -/
def ctxIdle : Context := { ctx5 with members := [] }
def shareTaken (tA : Nat) : Bool := match testShare (withCtx ctxIdle sReady) ctxIdle { par5 with count := 0 } tA with
  | .inl _ => true
  | .inr _ => false
/-- The share fits, whatever the island's stamp. -/
theorem share_fits : [0, 1, 2, 3, 4].all shareTaken = true := by decide +kernel
theorem skew_small (n : Nat) (h : n < 9) : shareTaken ((0 + n - 4) % 2 ^ 64) = true := by
  have : n = 0 ∨ n = 1 ∨ n = 2 ∨ n = 3 ∨ n = 4 ∨ n = 5 ∨ n = 6 ∨ n = 7 ∨ n = 8 := by omega
  have fits := List.all_eq_true.mp share_fits
  rcases this with h | h | h | h | h | h | h | h | h <;> subst h <;> exact fits _ (by decide)
theorem stamp_of (s : State) (i t : Nat) (h : max s.time.copy s.time.now = t) : stamp s i = (t + Config.islandSkew i % 9 - 4) % 2 ^ 64 := by
  unfold stamp; rw [h]
theorem witness_coll_reserve_yes : shareTaken (stamp (withCtx ctxIdle sReady) 18) = true := by
  rw [stamp_of _ 18 0 (by decide +kernel)]
  exact skew_small _ (Nat.mod_lt _ (by decide))
theorem witness_coll_reply : { round5 with accepted := false, e := some 4 }.ended = false ∧ (2 : SwitchId) ∉ round5.reserved ∧
    round5.reserved.length + round5.refusers.length + 1 < 3 := by decide
theorem witness_coll_data : (coll7.src, coll7.member) ∈ ctx5.members ∧ ((9 : AgentId), coll7.member) ∉ ctx5.members ∧
    roundLive (withCtx live5 sOwn) live5 round5 = true ∧ coll7.chunk < runChunks live5 round5 ∧ coll7.first < chunkLen live5 round5 coll7.chunk ∧
    round5.mark ≤ coll7.chunk ∧ (leafOf round5 0).acked = false ∧ (leafOf round5 0).sent = false ∧
    bringsAgain live5 round5 (leafOf round5 0) coll7 = false ∧
    leafDone live5 round5 (addContribution live5 round5 coll7 (leafOf round5 0)) = false := by decide +kernel
theorem witness_coll_repeat : (let r := putLeaf round5 (addContribution live5 round5 coll7 (leafOf round5 0))
    bringsAgain live5 r (leafOf r 0) coll7 = true ∧ bringsAgain live5 r (leafOf r 0) { coll7 with first := 8, data := List.replicate 4 0 } = true) ∧ (0 : Nat) < { round5 with mark := 1 }.mark := by decide +kernel
theorem witness_coll_part : (((2 : SwitchId), 0) ∉ (rootOf round5 0).leaves) ∧ (rootOf round5 0).complete = false ∧
    (let as := readPartials (ctxMode live5) (coll7.data.length + 1) coll7.data []
     rootDoneNow live5 round5 { rootOf round5 0 with leaves := [(2, 0)], accs := mergeAt (fullAccs 16 []) 0 as, poison := false } = false) ∧
    ((2 : SwitchId), 0) ∈ (rootOf { round5 with root := [{ k := 0, leaves := [(2, 0)] }] } 0).leaves ∧
    (rootOf { round5 with ended := true, root := [{ k := 0, complete := true }] } coll7.chunk).complete = true ∧ (2 : SwitchId) ≠ selfId sOwn := by
  decide +kernel
theorem witness_coll_ack : (let p := { coll7 with chunk := 1 }
    let r := { round5 with params := { par5 with count := 40 } }
    p.chunk ≠ r.mark ∧ r.markTold = r.mark ∧ r.mark ≤ p.chunk ∧ p.chunk < runChunks live5 r ∧ (leafOf r r.mark).acked = false) := by decide +kernel
theorem witness_coll_promise : par5.promise ≤ 1000 ∧ (0 : Nat) < par5.promise ∧ { round5 with e := some 4 }.share = none ∧
    (ledgerEntry (atWork (job 0x49 []) sOwn) 4).map (fun y => y.result) = some none := by decide +kernel
theorem test_coll_discards : (match exec (.collData coll7) sOwn with
    | .next t => some t.coll.discarded
    | _ => none) = some 1 := by decide +kernel

/-! ### Attention and gathers -/

def attendJob : Entry := job 0x60 [(2, 1), (16, 0x200000), (24, 0x201000), (32, 1), (34, 0xFF), (36, 1), (37, 1), (38, 1)]
def mayWrite (w : State × Stat) : Bool := w.2 == 0x00 && w.1.own.need.isEmpty && w.1.ledger.target != 1 && ((ledgerEntry w.1 4).map fun y => y.result) == some none
theorem witness_attend : (let u := startEntry (answered [0x8000, 0x8001, 0x8002] (atWork attendJob sOwn)) 4
    (attendSeq u attendJob 0).2.stop = 0x00 ∧ tallyStatus attendJob = 0x00 ∧ nextItem attendJob = 0 ∧
    mayWrite (ownWrite (attendSeq u attendJob 0).1 4 1 0x201000 (attendSeq u attendJob 0).2.record) = true) := by
  decide +kernel
def mergeJob : Entry := job 0x61 [(2, 1), (16, 0x200000), (24, 0x201000), (32, 1), (34, 1), (36, 1), (37, 1), (38, 1)]
theorem witness_attn_merge : (let u := startEntry (answered [0x8000, 0x8001, 0x8002, 0x8003, 0x8004] (atWork mergeJob (withMem [(0x200002, 0x20)] sOwn))) 4
    let l := ownRead u 4 0x200000 8
    let o := mergeSeq u mergeJob [BitVec.ofNat 64 (leAt l.bytes 0 8)] l.status 0
    o.stop = 0x00 ∧ mayWrite (ownWrite u 4 1 0x201000 o.record) = true) := by decide +kernel
def gatherJob : Entry := job 0x62 [(2, 1), (16, 0x200000), (24, 0x201000), (32, 0x202000), (40, 1), (44, 16), (48, 3)]
theorem witness_gather : (let u := startEntry (answered [0x8000, 0x8080] (atWork gatherJob sOwn)) 4
    let v := startEntry (answered [0x8080] (atWork gatherJob (withMem [(0x202000, 3)] sOwn))) 4
    gatherIndex u gatherJob 0 = (0, 0x00) ∧ gatherIndex v gatherJob 0 = (3, 0x00) ∧ descField gatherJob.desc 48 8 ≠ 0 ∧
    descField gatherJob.desc 48 8 ≤ 3 ∧ (ownRead u 4 (offsetIn 0x200000 0) 16).status = 0x00 ∧
    (ownWrite u 4 1 0x201000 (List.replicate 16 0xFF)).2 = 0x00 ∧
    (let w := gatherOne gatherJob (u, {}) 0
     w.2.status = 0x00 ∧ mayWrite (w.1, 0) = true)) := by decide +kernel
def bagJob : Entry := job 0x63 [(2, 1), (16, 0x200000), (24, 0x201000), (32, 0x202000), (40, 0x203000), (48, 1), (52, 4)]
theorem witness_bag : (let u := startEntry (answered [0x80C0] (atWork bagJob sOwn)) 4
    let v := startEntry (answered [0x8000, 0x8080, 0x80C0] (atWork bagJob (withMem [(0x203004, 1)] sOwn))) 4
    listValue u bagJob 0x203000 0 = (0, 0x00) ∧ listValue u bagJob 0x203000 1 = (0, 0x00) ∧
    listValue v bagJob 0x203000 1 = (1, 0x00) ∧ listValue v bagJob 0x202000 0 = (0, 0x00) ∧
    (ownRead v 4 (offsetIn 0x200000 0) 16).status = 0x00 ∧ (ownWrite u 4 1 0x201000 (List.replicate 16 0)).2 = 0x00 ∧
    (let w := bagOne bagJob (v, {}) 0
     w.2.status = 0x00 ∧ mayWrite (w.1, 0) = true)) := by
  decide +kernel

/-! ### Filter units -/

def row1 : ArrRow := { key := 9, mask := 0, prio := 0, result := 77 }
def exact1 : ArrEntry := { slot := 0, copy := row1, row := row1 }
def tableX : Table := { room := 1, array := 2, first := 0, count := 1, ternary := false, entries := [exact1] }
def withTable (t : Table) (s : State) : State := { s with filt := { s.filt with tables := [t] } }
def bookJob : Entry := { job 0x70 [(16, 1), (20, 0x10)] with started := true, st := .running }

theorem witness_booking : (let s := atWork bookJob { sOwn with filt := { sOwn.filt with booking := [(1, 4)] } }
    filterWorkLeft s 1 false = [] ∧ filterWorkLeft s 1 true = [] ∧
    (∀ k < 8, clampTable s 1 k (descField bookJob.desc (20 + 2 * k) 2) = descField bookJob.desc (20 + 2 * k) 2) ∧
    clampGroups s 1 (descField bookJob.desc 36 4) = descField bookJob.desc 36 4) := by decide +kernel
theorem witness_booking_waits : filterWorkLeft (atWork { job 0x72 [(2, 1)] with st := .running } sOwn) 1 false ≠ [] := by decide +kernel

/-- An update record that inserts key 5, and one that deletes it (Table 13-2). -/
def writeJob : Entry := job 0x71 [(2, 1), (16, 0x200000), (24, 1), (28, 2)]
theorem witness_array_write : (let u := startEntry (answered [0x8000, 0x8001] (atWork writeJob (withTable tableX sOwn))) 4
    let got := ownRead u 4 0x200000 96
    got.status = 0x00 ∧ tableOf u 1 2 = some tableX ∧ (readUpdate false got.bytes).clamps = 0 ∧ isRetired u 0x07 2 = false ∧
    (applyUpdate tableX (readUpdate false got.bytes)).isSome = true ∧
    (let w := writeRecordAt writeJob (u, {}) 0
     w.2.status = 0x00 ∧ mayWrite (w.1, 0) = true)) := by decide +kernel
def lookupJob : Entry := job 0x72 [(2, 1), (16, 0x200000), (24, 0x201000), (32, 1), (36, 2)]
theorem witness_array_lookup : (let u := startEntry (answered [0x8000] (atWork lookupJob (withTable tableX (withMem [(0x200000, 9)] sOwn)))) 4
    let got := ownRead u 4 0x200000 32
    let r := arrayLookup u 1 2 (BitVec.ofNat 256 (leVal got.bytes))
    got.status = 0x00 ∧ r.2.2.1 = true ∧ (ownWrite r.1 4 1 0x201000 r.2.1).2 = 0x00 ∧
    (let w := lookupAt lookupJob (u, {}) 0
     w.2.status = 0x00 ∧ mayWrite (w.1, 0) = true)) := by decide +kernel
theorem witness_scrub_step : { exact1 with row := { row1 with key := 8 } }.row ≠ exact1.copy ∧ tableX.first * 65536 + exact1.slot ≤ 0 ∧
    0 < tableX.first * 65536 + exact1.slot + entrySlots tableX ∧ 0 < (tableX.first + tableX.count) * 65536 := by decide
theorem test_scrub_rewrites : (match exec (.arrayScrubStep 2 { slot := 0 }) (withTable { tableX with entries := [{ exact1 with row := { row1 with key := 8 } }] } run0) with
    | .next t => (t.filt.tables.flatMap fun t => t.entries.map fun e => e.row.key, t.filt.rewrites)
    | _ => ([], [])) = ([9], [(2, 1)]) := by decide +kernel

def loadJob : Entry := job 0x73 [(2, 1), (16, 0x200000), (24, 400), (28, 6), (29, 1)]
def imageLines : List Nat := (List.range 7).map fun i => 0x8000 + i
theorem witness_auto_load_bad : (let u := startEntry (answered imageLines (atWork loadJob sOwn)) 4
    (ownRead u 4 0x200000 400).status = 0x00 ∧ (firstBad (ownRead u 4 0x200000 400).bytes 400).isSome = true) := by decide +kernel
theorem witness_auto_untested : (let s := answered imageLines (atWork (fresh loadJob) sOwn)
    untested s (fresh loadJob) 0x73 = true ∧ s.own.need = []) := by decide +kernel
def auto6 : Automaton := { id := 6, room := 1, span := 0, parts := [], replicas := 1, engines := [3] }
def withAuto (s : State) : State := { s with filt := { s.filt with automata := [auto6] } }
theorem witness_auto_unload : (let s := atWork (job 0x74 [(2, 1), (16, 6)]) (withAuto sOwn)
    (s.filt.automata.any fun a => a.id == 6 && a.room == 1) = true ∧ scansOf (startEntry s 4) 1 6 = [] ∧
    scansOf (startEntry (atWork { job 0x75 [(2, 1), (28, 6)] with st := .running } sOwn) 9) 1 6 ≠ []) := by decide +kernel
def scanJob : Entry := job 0x75 [(2, 1), (16, 0x200000), (24, 1), (28, 6), (40, 0x201000), (48, 64)]
/-- A list of one range, of one line. -/
def sRange : State := withMem [(0x200002, 0x20), (0x200008, 64)] sOwn
theorem witness_auto_scan : (let u := startEntry (answered [0x8000] (atWork scanJob (withAuto sRange))) 4
    hasReplica u auto6 = true ∧ hasReplica u { auto6 with replicas := 0 } = false ∧
    (let r := scanSection u scanJob auto6 (scanNext u scanJob (scanSoFar scanJob))
     r.1.status ≤ 5 ∧ mayWrite (ownWrite (recordClamps u scanJob r.1.clamps) 4 1 0x201000 []) = true)) := by decide +kernel

/-! ### Packages, images, health

What a signature, a hash or an unwrapped key must be is left to the opaque functions of Config, so no concrete package or image passes
its checks here; the ways in which one fails are shown. -/

theorem witness_bind : entryRoom (job 0x80 []) = 0 ∧ (job 0x80 []).mgmt = true ∧ entryRoom (job 0x80 [(2, 1)]) ≠ 0 := by decide +kernel
def pkgS : PkgSlot := { slot := 3, key := 0, pkgId := 0 }
def sPkg : State := { sOwn with keys := { sOwn.keys with pkgs := [pkgS] } }
theorem witness_package : (sPkg.keys.pkgs.any fun p => p.slot == descField (desc 0x81 [(36, 3)]) 36 1) = true ∧
    (sPkg.keys.pkgs.any fun p => p.slot == descField (desc 0x82 [(16, 4)]) 16 1) = false ∧ entryRoom (job 0x82 [(16, 3)]) = 0 := by decide +kernel
def fwJob : Entry := job 0x83 [(16, 0x5000), (24, 256)]
theorem witness_image : (let u := startEntry (atWork fwJob sOwn) 4
    descField fwJob.desc 28 1 = 0 ∧ fwBusy (atWork fwJob sOwn) 4 = false ∧ (listRead u fwJob zeros256 0x5000 256).status = 0x00 ∧
    imageCheck sOwn.fuses (listRead u fwJob zeros256 0x5000 256).bytes = 1) := by decide +kernel
theorem witness_commit_svn : descField (job 0x83 [(28, 1)]).desc 28 1 = 1 ∧ fwBusy (atWork (job 0x83 [(28, 1)]) run0) 4 = false := by decide +kernel
theorem test_commit_svn : (match exec (.fwUpdateCommitSvn 4) (atWork (job 0x83 [(28, 1)]) { run0 with boot := { run0.boot with measure := { svn := 5 } } }) with
    | .next t => some t.fuses.minSvn
    | _ => none) = some 5 := by decide +kernel
/-- A statement written by this switch's own stores leaves the entry as it stands. -/
theorem witness_bind_stands : Stands (atWork (job 0x80 []) sOwn) 4 := ⟨by decide +kernel, by decide +kernel, job 0x80 [], by decide +kernel, rfl⟩
/-- A package whose tiles are still to be placed; its first tile cannot be read. -/
def openJob8 : Entry := { job 0x81 [(2, 1), (16, 0x200000), (24, 0x200000), (36, 3)] with tally := [0, 0, 0, 0, 1] }
theorem witness_package_tiles : openJob8.tally ≠ [] ∧ sPkg.keys.pkgs.find? (fun p => p.slot == descField openJob8.desc 36 1) = some pkgS ∧
    nextItem openJob8 = 0 ∧ meetsDrain (atWork openJob8 sPkg) 4 (tileGfa (tileKey (descWord openJob8.desc 24) + 0)) = false := by decide +kernel

theorem witness_retire : isRetired run0 0x08 255 = false ∧ 255 < unitCount 0x08 ∧ unitCount 0x0B = 196 ∧ run0.hlth.state ≠ .failed ∧
    isRetired { run0 with hlth := { run0.hlth with retired := [(8, 7)] } } 0x08 7 = true := by decide +kernel
theorem witness_health_cmd : (let d := (job 0x90 [(16, 0), (17, 0x0B), (18, 195)]).desc
    descField d 16 1 = 0 ∧ descField d 17 1 = 0x0B ∧ descField d 18 2 = 195 ∧ unitCount (descField d 17 1) ≠ 0) ∧
    descField (job 0x90 [(16, 1)]).desc 16 1 = 1 ∧ ((atWork (job 0x90 [(16, 1)]) run0).ledger.entries.any fun y => y.n != 4 && !y.recorded) = false ∧
    descField (job 0x90 [(16, 2)]).desc 16 1 = 2 := by decide +kernel
/-- Twin 2 is configured, with no witness; its heartbeat is old. -/
def withRwl (l : List (Nat × Word)) (s : State) : State := { s with regs := { s.regs with rwl := l } }
def at9s (s : State) : State := { s with time := { s.time with now := 9000000000 } }
def sTwin : State := at9s (withRwl [(0x32000, 0x8002000200000000)] run0)
theorem witness_take_over : twinPresent sTwin = true ∧ twinId sTwin ∉ sTwin.twin.adopted ∧ beatStale (seeBeat sTwin) = true ∧
    witnessPresent sTwin = false ∧ headerLive (seeBeat sTwin) = false ∧ sTwin.maps.tiles = [] ∧ twinPresent run0 = false := by decide +kernel
def fault0 : FaultRec := { kind := 5, severity := 0, serial := 0, time := 0 }
theorem witness_fault_read : (let d := (job 0x91 [(24, 1)]).desc
    descField d 24 4 = 1 ∧ BitVec.ofNat 32 (descField d 16 8) = fault0.serial) ∧ (job 0x91 [(24, 1)]).mgmt = true := by decide +kernel
theorem witness_scrub : (let d := (job 0x92 [(16, 0x200000), (24, 1)]).desc
    isHome sHome (homeOf (descWord d 16)) = true ∧ extentOf sHome (extKey (descWord d 16)) ≠ none ∧
    (tileOf sHome (tileKey 0x200040)).map (fun y => y.res.tier) = some 0 ∧ extKey 0x200040 = extKey (descWord d 16)) := by decide +kernel
/-- Five bytes of the stored line 0x8001 have changed: more than the code corrects. -/
def hit5 : Upset := { unit := { kind := .line, tile := 32, i := 1, cut := none }, bits := 0x0101010101 }
/-- One byte has. -/
def hit1 : Upset := { hit5 with bits := 0x01 }
def hitWord (x : Upset) : List Nat := match unitData sHome x.unit with
  | some y => List.zipWith (· ^^^ ·) (unitBytes x.unit y.1 y.2) ((leBytes 72 x.bits.toNat).map fun b => b.toNat)
  | none => []
theorem witness_upsets : (contentsOf sHome none 32).map (fun z => z.res.tier) = some 0 ∧ (unitData sHome hit5.unit).isSome = true ∧
    decodeUnit hit5.unit (hitWord hit5) = none ∧ decodeUnit hit1.unit (hitWord hit1) = some (List.replicate 64 0, none, 1) := by decide +kernel
theorem test_scrub_poisons : (match exec (.tier0DailyScrub [hit5] []) sHome with
    | .next t => t.pool.marks
    | _ => []) = [(0x8001, .poisoned)] := by decide +kernel
theorem test_scrub_corrects : (match exec (.tier0DailyScrub [] [hit1]) sHome with
    | .next t => (t.pool.marks, t.pool.corrected)
    | _ => ([], 0)) = ([], 1) := by decide +kernel
theorem witness_fault_copied : (let en := { job 0x91 [(24, 1), (32, 0x201000)] with mgmt := false }
    let s := { sOwn with hlth := { sOwn.hlth with log := [fault0] } }
    let r := [(fault0, 0)].foldl (copyRecord en) (startEntry (answered [0x8040] (atWork en s)) 4, {})
    en.mgmt = false ∧ r.2.status ≤ 5 ∧ mayWrite (r.1, 0) = true) := by decide +kernel

/-! ### Power, heat, the twin -/

theorem witness_power : clampCap run0 (descField (job 0xA0 [(16, 900)]).desc 16 2) = 900 ∧ 900 * 1000 ≤ effectiveCap run0 ∧
    effectiveCap run0 < 1251 * 1000 ∧ effectiveCap run0 = 1250 * 1000 := by decide +kernel
theorem test_hot_die : (match exec (.thermalCondition 2 420) run0 with
    | .next t => (t.innk.hot, t.innk.hotEntries)
    | _ => ([], 9)) = ([2], 1) := by decide +kernel
def sWitness : State := at9s (withRwl [(0x32000, 0xC002000200000000)] run0)
theorem witness_twin : twinPresent sWitness = true ∧ witnessPresent sWitness = true ∧ twinId sWitness = 2 ∧ beatStale (seeBeat sWitness) = true ∧
    sWitness.twin.witnessAt + tTake sWitness / 4 ≤ sWitness.time.now ∧ mirrorTarget sWitness = sWitness.ledger.target ∧
    beatStale (seeBeat { sWitness with time := run0.time }) = false := by decide +kernel
theorem witness_claimed : twinId sTwin ∉ ({ sTwin.twin with claimed := some 0 } : Twin).adopted ∧ 0 + tTake sTwin / 2 ≤ sTwin.time.now := by decide +kernel
theorem test_filter_counter : readReg { run0 with filt := { run0.filt with falseHits := [(3, 7)], rewrites := [(3, 2)] } } (filtBase + 24) =
    some 0x0000000700000002 := by decide +kernel

/-! ### Time -/

def port6 : FabPort := { id := 3, up := true, sess := { phase := 6 }, reqTx := some 100, lastSync := some (50, 60) }
def frame0 : TimeFrame :=
  { seq := 0, tTx := 10, tReq := 0, grandmaster := 0, prio := 0, clockClass := 0, steps := 0, lock := 0, neighbour := 2, tRx := 20 }
def sTime : State := { run0 with fab := { run0.fab with ports := [port6] } }
theorem witness_time : fabPort sTime 3 = some port6 ∧ sTime.time.follow = none ∧ frame0.seq = port6.reqSeq ∧
    sourceRank sTime 2 ≤ sourceRank sTime sTime.time.source ∧ sourceRank sTime sTime.time.source < 5 ∧ sTime.time.accepted = false ∧
    sTime.time.stepped = false := by decide +kernel
theorem witness_source_rank : (∃ a < 4, ∃ b < 4, sourceRank sTime a < sourceRank sTime b) ∧ sTime.time.ppsHigh = none ∧
    sTime.time.now % 1000000000 = 0 := by decide +kernel
def sPtp : State := withRwl [(0x34008, 0x0000000001000000)] { run0 with fab := { run0.fab with brg := [{ id := 0, up := true }] } }
theorem witness_ptp : ptpEn sPtp 0 = true ∧ (brgPort sPtp 0).map (fun b => b.up) = some true ∧ ptpDomain sPtp = 0 ∧ sPtp.time.ptp = none := by
  decide +kernel
theorem test_offset_steps : (match exec (.timeSourceAnswer 2 (-100)) sTime with
    | .next t => (t.time.now, t.time.source, t.time.lock)
    | _ => (0, 0, 9)) = (100, 2, 0) := by decide +kernel
theorem witness_no_source : sourceGone { sTime with time := { sTime.time with source := 2, follow := some (9, 0, 0, 0, 0, 0) } } = true ∧ sourceGone sTime = false := by
  decide +kernel
theorem witness_pps_high : ({ sTime.time with ppsHigh := some 9 } : TimeRef).ppsHigh ≠ none ∧ (10 : Nat) < 500 % 1000000000 ∧ 500 % 1000000000 < 999999990 := by
  decide +kernel
theorem witness_no_ptp : ptpEn run0 0 = false := by decide +kernel

/-! ### Sessions -/

def shaking (h : Session) : State := { run0 with fab := { run0.fab with ports := [{ id := 3, up := true, sess := h }] } }
theorem witness_shaking : ∀ k < 7, Shaking (shaking { phase := k }) 3 { id := 3, up := true, sess := { phase := k } } { phase := k } k :=
  fun _ _ => ⟨rfl, by decide, rfl, rfl, rfl, rfl, rfl⟩
theorem witness_messages : hasMsg { phase := 1 } 0x01 false = false ∧ hasMsg { phase := 1, transcript := [(1, false, [])] } 0x01 false = true ∧
    (let c : ChainSeen := { bytes := [], root := 0, signaturesOk := true }
     ((List.range 16).any (fun k => anchor run0 k == c.root) && c.signaturesOk) = true) ∧
    (let c : ChainSeen := { bytes := [], root := 0, signaturesOk := false }
     ((List.range 16).any (fun k => anchor run0 k == c.root) && c.signaturesOk) = false) := by decide +kernel
theorem witness_wrong_mac (x : BitVec 256) : x + 1 ≠ x := by simp
theorem test_wrong_version_aborts : (match exec (.hello 3 0 0 2) (shaking { phase := 1 }) with
    | .next t => (t.keys.secFaults, t.fab.ports.map fun q => (q.up, q.sess.phase))
    | _ => (9, [])) = (1, [(false, 0)]) := by decide +kernel
theorem witness_session_waits : (let q : FabPort := { id := 3, lanes := 8, sess := { retryAt := some 5 } }
    let s := withRwl [(0x10118, 0xE000000101000000)] { run0 with fab := { run0.fab with ports := [q] } }
    fabPort s 3 = some q ∧ q.sess.phase = 0 ∧ fabEn s 3 = true ∧ 0 < min q.lanes (fabTrainable s 3)) := by decide +kernel
/-- Port 3 leads to the twin: switch 2, in room 0x00's routes. -/
def sTwinPort : State := { sTwin with fab := { sTwin.fab with
  ports := [port6], routes := [{ room := 0, epoch := 0, paths := [{ key := .home 2, attachSwitch := 2, ports := [3] }] }] } }
theorem witness_twin_port : twinPort sTwinPort 3 = true ∧ fabPort sTwinPort 3 = some port6 ∧ (1 : BitVec 32) ≠ pairGen sTwinPort ∧
    sTwinPort.keys.peerEk = none := by decide +kernel

/-! ### Bridge and flex ports -/

def brg2 : BrgPort := { id := 2, up := true, sess := { phase := 6 }, ackOwed := some 0, unacked := [{ seq := 0, packets := [], control := false, sentAt := 0 }] }
def sBrg : State := { at9s run0 with fab := { run0.fab with brg := [brg2] } }
def frameB : BridgeFrame := { seq := 0, ack := 0, creditVc := 0, creditSlots := 0, valid := true, outerCe := false, packets := [] }
theorem witness_bridge : brgPort sBrg 2 = some brg2 ∧ brg2.sess.phase = 6 ∧ frameB.valid = true ∧ frameB.seq = brg2.rxSeq ∧ brg2.failWin.2 < 15 ∧
    0 + 2000 ≤ sBrg.time.now ∧ brg2.lastSent + 100000 ≤ sBrg.time.now ∧ max brg2.lastAckAt 0 + rto brg2 ≤ sBrg.time.now ∧
    brg2.lastAccept + tDead sBrg ≤ sBrg.time.now ∧ brg2.pn < 2 ^ 40 := by decide +kernel
theorem test_bridge_frame : (match exec (.bridgeDataFrame 130 frameB) sBrg with
    | .next t => t.fab.brg.map fun q => (q.rxSeq, q.ackOwed)
    | _ => []) = [(1, some 0)] := by decide +kernel
theorem witness_bridge_fails : (15 : Nat) ≤ ({ brg2 with failWin := (0, 15) } : BrgPort).failWin.2 ∧ sBrg.time.now ≥ 0 + 1000000 ∧
    (at9s run0).time.now < ({ brg2 with failWin := (9000000000, 15) } : BrgPort).failWin.1 + 1000000 := by decide +kernel

def flex2 : FlexPort := { id := 2, up := true, secured := true, keys := [5], ideActive := true, biEnable := true }
/-- Flex port 2 in device role, with a window of 2 MiB at 0x200000. -/
def sFlex : State := withRwl [(0x10A10, 0xC000000000000000), (0x10A90, 0x200000), (0x10B10, 1)] { at9s run0 with fab := { run0.fab with flex := [flex2] } }
theorem witness_flex : flexPort sFlex 2 = some flex2 ∧ flexDevice sFlex 2 = true ∧ flexGfa sFlex 2 0x40 = some 0x200040 ∧ flexGfa sFlex 2 0x200000 = none ∧
    flexOwns sFlex 2 (lineGfa (lineKey 0x200040)) = false ∧ lineKey 0x200040 ∉ flex2.unique ∧ enabledRuns 0xF0 = [(4, 4)] ∧
    flex2.linkUpAt + 100000000 ≤ sFlex.time.now := by decide +kernel
theorem witness_bi_snoop : (let x : FlexSnoop := { tag := 9, gfa := 0x200040, home := 1, room := 1, epoch := 1, wcls := 0 }
    x.tag = 9 ∧ lineKey x.gfa = lineKey (flexWin sFlex 2 + 0x40)) := by decide +kernel
theorem test_flex_outside_window : (match exec (.cxlMemwr 146 0x200000 [] 4 0) sFlex with
    | .next t => t.out
    | _ => []) = [.cxl 2 4 false []] := by decide +kernel
/-- An earlier write of the flow waits, and none does. -/
theorem witness_flex_flow : (let p := flexPacket sFlex 2 0x00 vcReqR 0 0 7 0x200040 (flexWord3 64 0) []
    (∃ y ∈ ({ flex2 with again := [{ host := 7, pkt := p }] } : FlexPort).again, homeOf y.pkt.w2 = homeOf p.w2 ∧ y.pkt.ocls = p.ocls) ∧
    flex2.again ++ flex2.sent.filter (fun y => y.flushed) = []) := ⟨⟨_, List.mem_cons_self, rfl, rfl⟩, rfl⟩
theorem witness_two_runs : enabledRuns 0xF00F = [(0, 4), (12, 4)] := by decide +kernel

/-! ### Management, boot, resets, registers -/

def req0 : SpdmReq := { transport := 1, nonce := 0, slot := 0 }
theorem witness_management : firmwareRuns run0 = true ∧ run0.mgmt.link = true ∧ spdmQueue run0 < 256 ∧ run0.fab.inbox = [] ∧
    256 ≤ spdmQueue { run0 with mgmt := { run0.mgmt with spdmFree := 12800000 } } ∧ run0.boot.power ≠ .testHold ∧ run0.boot.power ≠ .off := by
  decide +kernel
theorem test_busy : (match exec (.challenge req0) { run0 with mgmt := { run0.mgmt with spdmFree := 12800000 } } with
    | .next t => t.out
    | _ => []) = [.spdm 1 .challenge false spdmBusy] := by decide +kernel
theorem witness_boot : pickImage State.reset.fuses (bootOrder State.reset.boot) 0 = (none, 0) ∧ State.reset.boot.setupRec = none ∧
    bar0Open run0 = true ∧ takesImage { run0 with boot := { run0.boot with power := .imageWait, mboxState := 1 } } = true ∧
    imageCheck run0.fuses (windowImage { run0 with boot := { run0.boot with mboxLen := 0 } }) ≠ 0 := by decide +kernel
theorem test_boot_timeout : (match exec .bootTimeout { run0 with boot := { run0.boot with power := .imageWait } } with
    | .next t => some t.boot.power
    | _ => none) = some .testHold := by decide +kernel
/-- A warm reset and a room reset of room 1, confirmed (Table 18-8). -/
theorem witness_resets : canWarm run0 = true ∧ resetKind 0x010000000000A5A5 = 1 ∧ resetConfirmed 0x010000000000A5A5 = true ∧
    resetKind 0x020100000000A5A5 = 2 ∧ resetTarget 0x020100000000A5A5 = 1 ∧ resetConfirmed 0x0201000000000000 = false ∧
    (∀ r ∈ run0.ledger.rings, r.room ≠ 1) ∧ roomWork run0 1 = [] ∧ roomWork (atWork (job 0 [(2, 1)]) run0) 1 ≠ [] := by decide +kernel
theorem test_unconfirmed_reset : (match exec (.roomReset 0x0201000000000000) run0 with
    | .next t => some t.boot.rstIgn
    | _ => none) = some 1 := by decide +kernel
theorem witness_registers : (rwlReset State.reset.fuses.a20 portBase).isSome = true ∧ portBase ≠ ctlBase ∧ portBase ≠ ctlBase + 8 ∧ portBase % 8 = 0 ∧
    State.reset.regs.locked = false ∧ rwlReset State.reset.fuses.a20 idBase = none ∧ (readReg State.reset idBase).isSome = true ∧
    readReg State.reset (ctlBase + 0x800) = none ∧ ctlBase + 0x800 < mboxBase := by decide +kernel
theorem witness_mailbox : (boxOf run0 5).req = false ∧ run0.mgmt.flr.contains 5 = false ∧ readByte (boxOf run0 5).request 0 ≠ 0x02 := by decide +kernel
theorem test_register_clamps : (match exec (.registerWrite portBase 8 0) State.reset with
    | .next t => readReg t portBase
    | _ => none) = some 0x0201 := by decide +kernel
theorem test_register_size : (match exec (.registerWrite portBase 4 0) State.reset with
    | .next t => t.regs.badIgnored
    | _ => 0) = 1 := by decide +kernel
theorem witness_boot_parts : unitCount 0x00 = 0 ∧ canWarm { run0 with boot := { run0.boot with power := .off } } = false ∧ inArr (portBase + 0xA80) (portBase + 0xA80) 8 16 = true ∧
    inArr portBase (portBase + 0xA80) 8 16 = false := by decide +kernel

/-! ### Steps -/

theorem witness_front : ({ run0 with pending := [.nop 4] } : State).pending = .nop 4 :: [] := rfl
theorem witness_idle : run0.pending = [] ∧ run0.boot.power ≠ .off ∧ run0.time.phase < 4999 ∧ isRunning State.reset = false ∧
    State.reset.time.ppsHigh = none := by decide +kernel
theorem witness_canonical : Memory.wf (writeBytes [] 0x200000 [1, 0, 2]) = true := by decide +kernel
theorem test_tick : (match step run0 with
    | .next t => t.time.now
    | _ => 0) = 1 := by decide +kernel

end Sys2Proof.Tests
end

section
/-!
PROOFS. What an instruction that works on one running core answers, and from it MVX, TIME, CSRR, XADD and XRND (Table 10-9).
-/

namespace Sys2Proof.Machine

/-! ### Instructions that are an operation on one running core -/

/-- The frame of `Gives` for every such instruction: what is left to show of one is its operation's result. -/
theorem gives_of_onCore {s : State} {c : CoreId} {k : Core} {i : Instr} (f : Core → Core) (hk : Active s c k)
    (hi : exec i s = .next (onCore s c f)) (hf : ∀ x, (f x).id = x.id) : Gives s i c (f k) :=
  ⟨_, hi, onCore_spec s c f k hk.1 hk.2 fun x hx => (hf x).trans hx⟩

theorem typed_of_mem {t : Ty} {allowed : List Nat} (ht : t.toNat ∈ allowed) (s : State) (c : CoreId) (f : Core → Core) :
    typed s c t allowed f = .next (onCore s c f) := by
  simp [typed, ht]

/-! ### Flags and registers -/

theorem setFlagIf_or (f g : BitVec 7) (n : Nat) (b : Bool) : setFlagIf (f ||| g) n b = f ||| setFlagIf g n b := by
  cases b
  · rfl
  · exact BitVec.or_assoc f g _

theorem raise_or (f g : BitVec 7) (r : Raised) : raise (f ||| g) r = f ||| raise g r := by
  simp only [raise, setFlagIf_or]

/-- An operation only adds flags, and which ones does not depend on those already set. -/
theorem raise_eq_or (f : BitVec 7) (r : Raised) : raise f r = f ||| raise 0 r := by
  simpa using raise_or f 0 r

@[simp] theorem Core.setS_flags (k : Core) (r : Reg) (v : Word) : (k.setS r v).flags = k.flags := by
  unfold Core.setS; split <;> rfl

@[simp] theorem Core.setS_pc (k : Core) (r : Reg) (v : Word) : (k.setS r v).pc = k.pc := by
  unfold Core.setS; split <;> rfl

/-- An instruction that raises `r` adds those flags and goes to the next instruction. -/
theorem Core.next_raised (k : Core) (r : Raised) :
    (k.raised r).next = { k with flags := k.flags ||| raise 0 r, pc := k.pc + 4 } := by
  simp only [Core.next, Core.raised, raise_eq_or k.flags r]

/-- Clearing the flags on a condition changes nothing else of the core. -/
theorem Core.ite_clear_flags (k : Core) (P : Prop) [Decidable P] :
    (if P then { k with flags := 0 } else k) = { k with flags := if P then 0 else k.flags } := by
  split <;> rfl

/-- As a word an island's copy of fabric time needs no reduction: both wrap at 64 bits. -/
theorem ofNat_stamp (s : State) (island : Nat) :
    BitVec.ofNat 64 (stamp s island) = BitVec.ofNat 64 (max s.time.copy s.time.now + Config.islandSkew island % 9 - 4) :=
  BitVec.eq_of_toNat_eq (by simp [stamp])

/-! ### The instructions -/

theorem gives_mvx {s : State} {c : CoreId} {k : Core} (hk : Active s c k) (f : BitVec 1) (a : Reg) :
    Gives s (.mvx c f a) c (if f = 0 then { k with xa := k.sreg a } else { k with xb := k.sreg a }).next :=
  gives_of_onCore (fun k => (if f = 0 then { k with xa := k.sreg a } else { k with xb := k.sreg a }).next) hk rfl
    fun x => by rw [Core.next_id]; split <;> rfl

theorem gives_time {s : State} {c : CoreId} {k : Core} (hk : Active s c k) (d : Reg) :
    Gives s (.time c d) c (k.setS d (BitVec.ofNat 64 (stamp s (100 + c.cluster)))).next :=
  gives_of_onCore (fun k => (k.setS d (BitVec.ofNat 64 (stamp s (100 + c.cluster)))).next) hk rfl fun x => by simp

theorem gives_csrr {s : State} {c : CoreId} {k : Core} (hk : Active s c k) (d a b : Reg) :
    Gives s (.csrr c d a b) c
      ((if b = 7 ∧ a ≠ 0 then { k with flags := 0 } else k).setS d (csrValue s k b.toNat)).next :=
  gives_of_onCore (fun k => ((if b = 7 ∧ a ≠ 0 then { k with flags := 0 } else k).setS d (csrValue s k b.toNat)).next) hk rfl
    fun x => by rw [Core.next_id, Core.setS_id, Core.ite_clear_flags]

theorem gives_xadd {s : State} {c : CoreId} {k : Core} (hk : Active s c k) {t : Ty} (ht : t.toNat ∈ xrndTypes) (d a b : Reg)
    (p : PReg) : Gives s (.xadd c t d a b p) c (xaddOp t d a b p k) :=
  gives_of_onCore (xaddOp t d a b p) hk (typed_of_mem ht s c _) fun _ => rfl

theorem gives_xrnd {s : State} {c : CoreId} {k : Core} (hk : Active s c k) {t : Ty} (ht : t.toNat ∈ xrndTypes) (d b : Reg) :
    Gives s (.xrnd c t d b) c
      ((k.setS d (BitVec.ofNat 64 (accRound (k.acc (b.toNat % 2)) t.toNat).1)).raised (accRound (k.acc (b.toNat % 2)) t.toNat).2).next :=
  gives_of_onCore (fun k => ((k.setS d (BitVec.ofNat 64 (accRound (k.acc (b.toNat % 2)) t.toNat).1)).raised
    (accRound (k.acc (b.toNat % 2)) t.toNat).2).next) hk (typed_of_mem ht s c _) fun x => by simp

/-- Settles O7: each of the five is an operation on one running core, and what is left is to read its result off. -/
theorem scaleTimeAndAccumulators : Obligations.ScaleTimeAndAccumulators := by
  intro s c k t d a b p hk
  refine ⟨gives_mvx hk 0 a, gives_mvx hk 1 a, ⟨Config.islandSkew (100 + c.cluster) % 9, by omega, ?_⟩, ?_, fun ht => ⟨?_, ?_⟩⟩
  · rw [← ofNat_stamp]
    exact gives_time hk d
  · rw [← Core.ite_clear_flags]
    exact gives_csrr hk d a b
  · exact gives_xadd hk ht d a b p
  · have h := gives_xrnd hk ht d b
    rw [Core.next_raised, Core.setS_flags, Core.setS_pc] at h
    exact ⟨_, h⟩

end Sys2Proof.Machine
end

section
/-!
PROOFS. What a step does that takes no command: the tick.
-/

namespace Sys2Proof.Machine

/-! ### The clock's part of a tick

Four branches of `advanceTime`: inside a period of 5,000 ticks, and at its end by the sign of the offset still to be slewed away
(R320). -/

@[simp] theorem seeTime_boot (s : State) : (seeTime s).boot = s.boot := rfl
@[simp] theorem seeTime_fab (s : State) : (seeTime s).fab = s.fab := rfl
@[simp] theorem seeTime_ppsHigh (s : State) : (seeTime s).time.ppsHigh = s.time.ppsHigh := rfl

theorem advanceTime_of_lt {s : State} (h : s.time.phase < 4999) :
    advanceTime s = { s with time := { s.time with now := (s.time.now + 1) % 2 ^ 64, phase := s.time.phase + 1 } } := if_pos h

theorem advanceTime_of_slew_zero {s : State} (h : 4999 ≤ s.time.phase) (hs : s.time.slew = 0) :
    advanceTime s = { s with time := { s.time with now := (s.time.now + 1) % 2 ^ 64, phase := 0 } } := by
  simp [advanceTime, Nat.not_lt.mpr h, hs]

theorem advanceTime_of_slew_pos {s : State} (h : 4999 ≤ s.time.phase) (hs : 0 < s.time.slew) :
    advanceTime s = { s with time := { s.time with
      now := (s.time.now + 2) % 2 ^ 64, phase := 0, slew := s.time.slew - 1, offset := s.time.offset + 1 } } := by
  simp [advanceTime, Nat.not_lt.mpr h, hs]

theorem advanceTime_of_slew_neg {s : State} (h : 4999 ≤ s.time.phase) (hs : s.time.slew < 0) :
    advanceTime s = { s with time := { s.time with phase := 0, slew := s.time.slew + 1, offset := s.time.offset - 1 } } := by
  simp [advanceTime, Nat.not_lt.mpr h, hs, Int.not_lt.mpr (Int.le_of_lt hs)]

/-- Advancing the clock touches the time only, and of it not the 1PPS output. -/
theorem advanceTime_frame (s : State) :
    advanceTime s = { s with time := (advanceTime s).time } ∧ (advanceTime s).time.ppsHigh = s.time.ppsHigh := by
  rcases Nat.lt_or_ge s.time.phase 4999 with hp | hp
  · rw [advanceTime_of_lt hp]
    exact ⟨rfl, rfl⟩
  · rcases Int.lt_trichotomy s.time.slew 0 with hs | hs | hs
    · rw [advanceTime_of_slew_neg hp hs]
      exact ⟨rfl, rfl⟩
    · rw [advanceTime_of_slew_zero hp hs]
      exact ⟨rfl, rfl⟩
    · rw [advanceTime_of_slew_pos hp hs]
      exact ⟨rfl, rfl⟩

@[simp] theorem advanceTime_boot (s : State) : (advanceTime s).boot = s.boot := by rw [(advanceTime_frame s).1]
@[simp] theorem advanceTime_fab (s : State) : (advanceTime s).fab = s.fab := by rw [(advanceTime_frame s).1]
@[simp] theorem advanceTime_ppsHigh (s : State) : (advanceTime s).time.ppsHigh = s.time.ppsHigh := (advanceTime_frame s).2

theorem advanceTime_phase_of_le {s : State} (h : 4999 ≤ s.time.phase) : (advanceTime s).time.phase = 0 := by
  rcases Int.lt_trichotomy s.time.slew 0 with hs | hs | hs
  · rw [advanceTime_of_slew_neg h hs]
  · rw [advanceTime_of_slew_zero h hs]
  · rw [advanceTime_of_slew_pos h hs]

theorem ppsFall_of_none {s : State} (h : s.time.ppsHigh = none) : ppsFall s = s := by simp [ppsFall, h]

/-- The 1PPS output's fall touches the time and what has gone out only. -/
theorem ppsFall_frame (s : State) : ppsFall s = { s with time := (ppsFall s).time, out := (ppsFall s).out } := by
  unfold ppsFall
  split
  · split <;> rfl
  · rfl

@[simp] theorem ppsFall_boot (s : State) : (ppsFall s).boot = s.boot := by rw [ppsFall_frame s]
@[simp] theorem ppsFall_fab (s : State) : (ppsFall s).fab = s.fab := by rw [ppsFall_frame s]

/-! ### The step -/

theorem step_of_no_command {s : State} (h : s.pending = []) : step s = .next (tick s) := by simp [step, h]

theorem tick_of_off {s : State} (h : s.boot.power = .off) : tick s = s := if_pos h

/-- With power on but the switch not running, only the clock and the 1PPS output go on. -/
theorem tick_of_not_running {s : State} (hp : s.boot.power ≠ .off) (hr : isRunning s = false) :
    tick s = ppsFall (advanceTime (seeTime s)) := by
  have h : isRunning (ppsFall (advanceTime (seeTime s))) = false := by simpa [isRunning] using hr
  simp [tick, hp, h]

/-- On a running switch the switch core and the ports then do their part. -/
theorem tick_of_running {s : State} (hr : isRunning s = true) :
    tick s = settleOwn (bridgeAll (egressAll (routeHead (goAgain (ppsFall (advanceTime (seeTime s))))))) := by
  have hp : s.boot.power = .running := by simpa [isRunning] using hr
  have h : isRunning (ppsFall (advanceTime (seeTime s))) = true := by simpa [isRunning] using hr
  simp [tick, hp, h]

theorem ppsFall_advanceTime_of_none {s : State} (h : s.time.ppsHigh = none) :
    ppsFall (advanceTime (seeTime s)) = advanceTime (seeTime s) := ppsFall_of_none (by simpa using h)

theorem routeHead_of_outbox {s : State} {p : Packet} {l : List Packet} (h : s.fab.outbox = p :: l) :
    routeHead s = route { s with fab := { s.fab with outbox := l } } p := by simp [routeHead, h]

/-- Settles O58, by what the tick does in each power state and what the clock does in each phase. -/
theorem idleStepIsATick : Obligations.IdleStepIsATick := by
  intro s hs
  rw [step_of_no_command hs]
  refine ⟨fun hoff => ?off, fun hp hr hh => ?waiting, fun hr => ?running, fun hlt => ?within_period, fun hle => ?end_of_period⟩
  case off => rw [tick_of_off hoff]
  case waiting =>
    rw [tick_of_not_running hp hr, ppsFall_advanceTime_of_none hh]
    rfl
  case running =>
    exact ⟨ppsFall (advanceTime (seeTime s)), tick s, rfl, tick_of_running hr, by simp, ppsFall_advanceTime_of_none,
      fun _ _ => routeHead_of_outbox⟩
  case within_period => rw [advanceTime_of_lt hlt]
  case end_of_period =>
    refine ⟨advanceTime_phase_of_le hle, fun hpos => ?_, fun hneg => ?_, fun hzero => ?_⟩
    · rw [advanceTime_of_slew_pos hle hpos]
      exact ⟨rfl, rfl⟩
    · rw [advanceTime_of_slew_neg hle hneg]
      exact ⟨rfl, rfl⟩
    · rw [advanceTime_of_slew_zero hle hzero]

end Sys2Proof.Machine
end

section
/-!
PROOFS. Where nothing stands, `settleAll` changes nothing; and what stands is not touched by the home's own work on requests.
-/

namespace Sys2Proof.Machine

/-! ### Nothing to settle -/

theorem settleRevokes_of_bound {s : State} (he : s.ledger.entries = []) (hx : ∀ x ∈ s.maps.exts, x.st = .bound) :
    settleRevokes s = s := by
  have hdone : (s.maps.exts.filter fun x => x.st == .draining && drainLeft s x == 0 && !moving s x.key) = [] :=
    List.filter_eq_nil_iff.mpr fun x h => by simp [hx x h]
  simp [settleRevokes, hdone, he]

theorem settleCommits_of_none {s : State} (h : ∀ x ∈ s.rooms.rooms, x.commit = none) : settleCommits s = s :=
  List.foldlRecOn (motive := fun t => t = s) s.rooms.rooms _ rfl fun t ht x hx => by simp [h x hx, ht]

theorem settleMigrates_of_none {s : State} (he : s.ledger.entries = []) : settleMigrates s = s := by simp [settleMigrates, he]

theorem askAgain_of_settled {s : State} (h : ∀ m ∈ movers s, m.mig = .settled) : askAgain s = s := by
  have hask : (movers s).filter (fun m => (m.mig == .committing || m.mig == .disputed)
      && mapTarget s (tileRoom s m.key) (m.mig == .disputed) == selfId s) = [] :=
    List.filter_eq_nil_iff.mpr fun m hm => by simp [h m hm]
  simp [askAgain, hask]

theorem pushEvac_of_none {s : State} (h : s.maps.evac = []) : pushEvac s = s := by
  have hevac : (movers s).filter (fun m => m.res.tier == 0 && m.mig == .settled && !m.lost &&
      s.maps.evac.any (fun x => x.1 == m.res.unit)) = [] :=
    List.filter_eq_nil_iff.mpr fun m _ => by simp only [h, List.any_nil, Bool.and_false, Bool.false_eq_true, not_false_eq_true]
  rw [pushEvac, hevac, List.foldl_nil]

theorem settleAll_of_quiet {s : State} (h : Quiet s) : settleAll s = s := by
  obtain ⟨hentries, hexts, hchanges, hrooms, hmovers, hstreams, hevac, -⟩ := h
  have hsettle : settle s = s := by
    simp [settle, hchanges, settleRevokes_of_bound hentries hexts, settleCommits_of_none hrooms,
      settleMigrates_of_none hentries]
  simp [settleAll, hsettle, askAgain_of_settled hmovers, hstreams, pushEvac_of_none hevac]

/-! ### The home's work -/

/-- From `s` to `u` the home has worked on requests: registers, time, own requests, the pool, rooms, tiles, streams and ledger
entries are as they were, and so is the state of every extent. -/
structure HomeWork (s u : State) : Prop where
  regs : u.regs = s.regs
  fuses : u.fuses = s.fuses
  time : u.time = s.time
  own : u.own = s.own
  pool : u.pool = s.pool
  rooms : u.rooms = s.rooms
  tiles : u.maps.tiles = s.maps.tiles
  retained : u.maps.retained = s.maps.retained
  streams : u.maps.streams = s.maps.streams
  evac : u.maps.evac = s.maps.evac
  extents : u.maps.exts.map (fun x => x.st) = s.maps.exts.map (fun x => x.st)
  entries : u.ledger.entries = s.ledger.entries

theorem HomeWork.trans {s t u : State} (h : HomeWork s t) (k : HomeWork t u) : HomeWork s u where
  regs := k.regs.trans h.regs
  fuses := k.fuses.trans h.fuses
  time := k.time.trans h.time
  own := k.own.trans h.own
  pool := k.pool.trans h.pool
  rooms := k.rooms.trans h.rooms
  tiles := k.tiles.trans h.tiles
  retained := k.retained.trans h.retained
  streams := k.streams.trans h.streams
  evac := k.evac.trans h.evac
  extents := k.extents.trans h.extents
  entries := k.entries.trans h.entries

/-- What differs from `s` in its directory, packets, sync objects and rings only is the home's work. -/
theorem HomeWork.of_parts (s : State) (dir : Dir) (fab : Fabric) (sync : Sync) (rings : List Ring) :
    HomeWork s { s with dir := dir, fab := fab, sync := sync, ledger := { s.ledger with rings := rings } } :=
  ⟨rfl, rfl, rfl, rfl, rfl, rfl, rfl, rfl, rfl, rfl, rfl, rfl⟩

theorem HomeWork.refl (s : State) : HomeWork s s := .of_parts s s.dir s.fab s.sync s.ledger.rings

theorem HomeWork.movers {s u : State} (h : HomeWork s u) : movers u = movers s := by
  simp only [Machine.movers, h.tiles, h.retained]

theorem HomeWork.rwl {s u : State} (h : HomeWork s u) (o : Nat) : rwl u o = rwl s o := by
  simp only [Machine.rwl, h.regs, h.fuses]

theorem HomeWork.isOwn {s u : State} (h : HomeWork s u) (r : Req) : isOwn u r = isOwn s r := by
  simp only [Machine.isOwn, selfAgent, h.rwl, h.own]

theorem HomeWork.waitTimeout {s u : State} (h : HomeWork s u) (t : Nat) : waitTimeout u t = waitTimeout s t := by
  have hdead : tDead u = tDead s := by rw [tDead, tDead, h.rwl]
  rw [Machine.waitTimeout, Machine.waitTimeout, hdead]

theorem HomeWork.quiet {s u : State} (h : HomeWork s u) (hq : Quiet s) : Quiet u := by
  obtain ⟨hentries, hexts, hchanges, hrooms, hmovers, hstreams, hevac, htwin⟩ := hq
  refine ⟨h.entries.trans hentries, fun x hx => ?_, ?_, ?_, ?_, h.streams.trans hstreams, h.evac.trans hevac, ?_⟩
  · have hst : x.st ∈ s.maps.exts.map (fun x => x.st) := h.extents ▸ List.mem_map_of_mem hx
    obtain ⟨y, hy, hxy⟩ := List.mem_map.mp hst
    rw [← hxy, hexts y hy]
  · rw [h.rooms, hchanges]
  · rwa [h.rooms]
  · rwa [h.movers]
  · rwa [twinPresent, h.rwl]

/-- After the home's work alone, a command that lets go on what waits lets nothing go on where nothing stands. -/
theorem next_settleAll_of_quiet {s u : State} {i : Instr} (hw : HomeWork s u) (hi : exec i s = .next (settleAll u))
    (hq : Quiet s) : exec i s = .next u := by rw [hi, settleAll_of_quiet (hw.quiet hq)]

end Sys2Proof.Machine
end

section
/-!
PROOFS. How a new request reaches the point of coherence of a home at which nothing else waits, and what `pump` does there.
-/

namespace Sys2Proof.Machine

/-! ### What waits at the home -/

theorem startRecalls_of_none {s : State} (h : s.dir.recalls = []) : startRecalls s = s := by
  have hs : { s with dir := { s.dir with recalls := [] } } = s := by rw [← h]
  rw [startRecalls, h, hs, List.foldl_nil]

theorem finishReady_of_none {s : State} (h : s.dir.txns = []) : finishReady s = s := by simp [finishReady, h]

theorem pumpLoop_of_none {s : State} (n : Nat) (h : s.dir.waiting = []) : pumpLoop n s = s := by
  cases n with
  | zero => rfl
  | succ n => simp [pumpLoop, h, pumpScan]

theorem pump_of_none {s : State} (hw : s.dir.waiting = []) (ht : s.dir.txns = []) (hr : s.dir.recalls = []) :
    pump s = dropLeases s := by
  simp only [pump, finishReady_of_none ht, startRecalls_of_none hr, pumpLoop_of_none _ hw]

/-- The state once the only waiting request has been served to `u`. -/
def served (u : State) : State := dropLeases { u with dir := { u.dir with waiting := [] } }

@[simp] theorem served_fab (u : State) : (served u).fab = u.fab := rfl
@[simp] theorem served_sync (u : State) : (served u).sync = u.sync := rfl
@[simp] theorem served_pool (u : State) : (served u).pool = u.pool := rfl

theorem homeWork_dropLeases (s : State) : HomeWork s (dropLeases s) := .of_parts s _ s.fab s.sync s.ledger.rings

theorem homeWork_served (u : State) : HomeWork u (served u) := .of_parts u _ u.fab u.sync u.ledger.rings

/-- A request that alone waits is served at once, if nothing is under way that would hold it back. -/
theorem pump_of_one {s u : State} {w : Waiting} (hw : s.dir.waiting = [w]) (ht : s.dir.txns = []) (hr : s.dir.recalls = [])
    (hs : s.sync.waiters = []) (hserve : serve s w.req w.op = (u, true)) (hu : u.dir.recalls = []) : pump s = served u := by
  have hfree : heldBack s [] w.req = false := by simp [heldBack, ht, hs]
  have hline : lineTaken s [] w.req = false := by simp [lineTaken]
  have hscan : pumpScan s [] s.dir.waiting = (u, some []) := by simp [hw, pumpScan, hfree, hline, hserve]
  have hloop : pumpLoop (s.dir.waiting.length + 1) s = { u with dir := { u.dir with waiting := [] } } := by
    rw [pumpLoop, hscan]
    have hrecalls : ({ u with dir := { u.dir with waiting := [] } } : State).dir.recalls = [] := hu
    exact (congrArg (pumpLoop _) (startRecalls_of_none hrecalls)).trans (pumpLoop_of_none _ rfl)
  simp only [pump, finishReady_of_none ht, startRecalls_of_none hr, hloop, served]

/-! ### Arrival -/

theorem renewLease_frame (s : State) (a : AgentId) :
    renewLease s a = { s with dir := { s.dir with leases := (renewLease s a).dir.leases } } := by
  unfold renewLease
  simp only
  split
  · rfl
  · split <;> rfl

theorem openAttach_frame (s : State) (r : Req) (opcode : BitVec 8) :
    openAttach s r opcode = { s with fab := { s.fab with att := (openAttach s r opcode).fab.att } } := by
  unfold openAttach
  split
  · rfl
  · split <;> rfl

/-- The state in which a new request has arrived and waits in its slice. -/
def entering (s : State) (r : Req) (o : Op) : State :=
  let t := openTrack (openAttach (renewLease (takeInbox s (opOpcode o) r.agent r.tag) r.agent) r (opOpcode o)) r (opOpcode o)
  { t with dir := { t.dir with waiting := t.dir.waiting ++ [{ req := r, op := o, since := t.time.now }] } }

/-- Arrival touches the inbox, the attachment entries, the leases, the tracker, the replay log and the requests that wait. -/
theorem entering_frame (s : State) (r : Req) (o : Op) :
    ∃ att leases, entering s r o = { s with
      dir := { s.dir with
        leases := leases
        trk := s.dir.trk ++ [{ req := r, opcode := opOpcode o, arrived := s.time.now }]
        replay := s.dir.replay.filter (fun e => !(e.agent == r.agent && e.tag == r.tag && e.epoch == r.epoch))
        waiting := s.dir.waiting ++ [{ req := r, op := o, since := s.time.now }] }
      fab := { s.fab with
        inbox := s.fab.inbox.eraseP (fun p => p.opcode == opOpcode o && p.src == r.agent && p.tag == r.tag)
        att := att } } := by
  unfold entering
  rw [openAttach_frame, renewLease_frame]
  exact ⟨_, _, rfl⟩

theorem entering_sync (s : State) (r : Req) (o : Op) : (entering s r o).sync = s.sync := by
  obtain ⟨att, leases, h⟩ := entering_frame s r o
  rw [h]

theorem entering_outbox (s : State) (r : Req) (o : Op) : (entering s r o).fab.outbox = s.fab.outbox := by
  obtain ⟨att, leases, h⟩ := entering_frame s r o
  rw [h]

theorem entering_txns (s : State) (r : Req) (o : Op) : (entering s r o).dir.txns = s.dir.txns := by
  obtain ⟨att, leases, h⟩ := entering_frame s r o
  rw [h]

theorem entering_recalls (s : State) (r : Req) (o : Op) : (entering s r o).dir.recalls = s.dir.recalls := by
  obtain ⟨att, leases, h⟩ := entering_frame s r o
  rw [h]

theorem entering_waiting (s : State) (r : Req) (o : Op) :
    (entering s r o).dir.waiting = s.dir.waiting ++ [{ req := r, op := o, since := s.time.now }] := by
  obtain ⟨att, leases, h⟩ := entering_frame s r o
  rw [h]

theorem homeWork_entering (s : State) (r : Req) (o : Op) : HomeWork s (entering s r o) := by
  obtain ⟨att, leases, h⟩ := entering_frame s r o
  rw [h]
  exact .of_parts s _ _ s.sync s.ledger.rings

theorem trackOf_of_new {s : State} {r : Req} (h : dedupe s r = .new) : trackOf s r.agent r.tag = none := by
  unfold dedupe at h
  split at h
  · split at h <;> cases h
  · assumption

/-- A new request has a tracker entry of one delivery from its arrival on. -/
theorem trackOf_entering {s : State} {r : Req} (h : dedupe s r = .new) (o : Op) :
    trackOf (entering s r o) r.agent r.tag = some { req := r, opcode := opOpcode o, arrived := s.time.now } := by
  have hnone := trackOf_of_new h
  obtain ⟨att, leases, hframe⟩ := entering_frame s r o
  unfold trackOf at hnone ⊢
  rw [hframe, List.find?_append, hnone]
  simp

theorem dedupe_renewLease (s : State) (a : AgentId) (r : Req) : dedupe (renewLease s a) r = dedupe s r := by
  rw [renewLease_frame]
  rfl

/-- A new request that a calm home receives enters its slice. -/
theorem homeRequest_of_calm {s : State} {r : Req} (h : Calm s r) (o : Op) : homeRequest s r o = pump (entering s r o) := by
  obtain ⟨hrun, hhome, hnew, -, -, -, -, -, -, -, htile⟩ := h
  have hded : dedupe (renewLease (takeInbox s (opOpcode o) r.agent r.tag) r.agent) r = .new := by
    rw [dedupe_renewLease]
    exact hnew
  have htiles : tileOf (openTrack (openAttach (renewLease (takeInbox s (opOpcode o) r.agent r.tag) r.agent) r (opOpcode o)) r
      (opOpcode o)) (tileKey r.gfa) = tileOf s (tileKey r.gfa) := by
    rw [openAttach_frame, renewLease_frame]
    rfl
  simp only [homeRequest, hrun, hhome, arrive, hded, enterSlice, htiles, Bool.not_true, Bool.false_eq_true, if_false, if_true]
  cases hl : tileOf s (tileKey r.gfa) with
  | none => rfl
  | some t =>
    simp only [htile t hl, Bool.false_and, Bool.false_eq_true, if_false]
    rfl

end Sys2Proof.Machine
end

section
/-!
PROOFS. The sync operations of Table 6-10 (R147, R149): what performing one at an object without waiters answers and leaves, what the
end of a waiter does, and from both how the commands behave.
-/

namespace Sys2Proof.Machine

/-! ### Operations on an object -/

theorem syncObjOf_setSyncValue (s : State) (n : Nat) (v : Word) :
    syncObjOf (setSyncValue s n v) n = (syncObjOf s n).map fun o => { o with value := v } :=
  find?_mapIf_key (fun o : SyncObj => o.n) n (fun o => { o with value := v }) s.sync.objs fun _ h => h

theorem homeWork_setSyncValue (s : State) (n : Nat) (v : Word) : HomeWork s (setSyncValue s n v) :=
  .of_parts s s.dir s.fab _ s.ledger.rings

/-- With no waiter anywhere a new value is all that a write leaves. -/
theorem changeSync_of_no_waiter {s : State} (h : s.sync.waiters = []) (n : Nat) (v : Word) :
    changeSync s n v = setSyncValue s n v := by
  simp [changeSync, setSyncValue, h, meetWaiters]

/-- A doorbell rings on the fabric rings only. -/
theorem objectBell_frame (s : State) (n : Nat) (v : Word) :
    objectBell s n v = { s with ledger := { s.ledger with rings := (objectBell s n v).ledger.rings } } := by
  unfold objectBell
  split <;> rfl

theorem homeWork_objectBell (s : State) (n : Nat) (v : Word) : HomeWork s (objectBell s n v) := by
  rw [objectBell_frame]
  exact .of_parts s s.dir s.fab s.sync _

/-- The test of a sync operation reads the objects, the rooms and the own ID. -/
theorem syncAdmit_of_homeWork {s u : State} (h : HomeWork s u) (hs : u.sync = s.sync) (r : Req) : syncAdmit u r = syncAdmit s r := by
  have hd : ∀ a d, domainAgents u a d = domainAgents s a d := fun a d => by simp only [domainAgents, h.rooms]
  have he : liveEpoch u r.room r.epoch = liveEpoch s r.room r.epoch := by
    simp only [liveEpoch, roomOf, selfId, h.rooms, h.rwl]
  simp only [syncAdmit, syncObjOf, hs, hd, he]

/-! ### The answer -/

/-- A packet formed answers `r` as a sync operation does: without an error, with the value and the outcome. -/
def SyncAnswered (u : State) (r : Req) (v : Word) (outcome : Byte) : Prop :=
  ∃ p ∈ u.fab.outbox, p.opcode = 0x43 ∧ p.dst = r.agent ∧ p.tag = r.tag ∧ p.w3.extractLsb' 56 8 = 0x00 ∧
    p.data = leBytes 8 v.toNat ++ [outcome] ++ List.replicate 7 0

/-- The operation of `r` is performed on object `n`: the switch's own agent does not ask it, the object is `x`, nothing waits on any
object, and the request, where it is tracked, has been delivered. -/
structure Performing (s : State) (n : Nat) (r : Req) (x : SyncObj) : Prop where
  foreign : isOwn s r = false
  object : syncObjOf s n = some x
  alone : s.sync.waiters = []
  delivered : ∀ e, trackOf s r.agent r.tag = some e → 0 < e.deliveries

/-- From `s` to `u` the home has answered `r` with the value of `x` and an outcome, and object `n` now holds `v`. -/
structure AnsweredWith (s u : State) (n : Nat) (r : Req) (x : SyncObj) (outcome : Byte) (v : Word) : Prop where
  work : HomeWork s u
  answered : SyncAnswered u r x.value outcome
  value : (syncObjOf u n).map (fun o => o.value) = some v
  waiters : u.sync.waiters = []
  waiting : u.dir.waiting = s.dir.waiting
  recalls : u.dir.recalls = s.dir.recalls
  txns : u.dir.txns = s.dir.txns

theorem map_mapIf_of_keeps {α β : Type} (p : α → Bool) {f : α → α} {g : α → β} (h : ∀ x, g (f x) = g x) (l : List α) :
    (mapIf p f l).map g = l.map g := by
  rw [mapIf, List.map_map]
  refine List.map_congr_left fun x _ => ?_
  simp only [Function.comp_apply]
  split
  · exact h x
  · rfl

/-- A change to an extent that keeps its state is the home's work. -/
theorem homeWork_updExtent (s : State) (k : Nat) {f : Extent → Extent} (h : ∀ x, (f x).st = x.st) :
    HomeWork s (updExtent s k f) :=
  ⟨rfl, rfl, rfl, rfl, rfl, rfl, rfl, rfl, rfl, rfl, map_mapIf_of_keeps _ h _, rfl⟩

theorem homeWork_uncount (s : State) (r : Req) : HomeWork s (uncount s r) := homeWork_updExtent s _ fun _ => rfl

/-- The status byte of a response is not reached by the field of its gen. -/
theorem extractLsb'_status_fieldOf_gen (n : Nat) : (fieldOf 52 4 n).extractLsb' 56 8 = 0 := by
  have hlt : (fieldOf 52 4 n).toNat < 2 ^ 56 := by
    rw [fieldOf, BitVec.toNat_ofNat]
    omega
  apply BitVec.eq_of_toNat_eq
  rw [BitVec.extractLsb'_toNat, Nat.shiftRight_eq_div_pow, Nat.div_eq_of_lt hlt]
  rfl

theorem rspPacket_status_ok (s : State) (r : Req) (opcode : BitVec 8) (data : List Byte) :
    (rspPacket s r opcode 0x00 0 data).w3.extractLsb' 56 8 = 0x00 := by
  have hw : (rspPacket s r opcode 0x00 0 data).w3 = fieldOf 56 8 0 ||| fieldOf 52 4 r.gen.toNat ||| fieldOf 50 2 0 := rfl
  rw [hw, BitVec.extractLsb'_or, BitVec.extractLsb'_or, extractLsb'_status_fieldOf_gen]
  decide

/-- The answer of a sync operation that is not the own agent's goes out once for each delivery; besides, the request leaves the
tracker for the replay log and the counts of its extent. -/
theorem syncRespond_frame {s : State} {r : Req} (hown : isOwn s r = false)
    (hdel : ∀ e, trackOf s r.agent r.tag = some e → 0 < e.deliveries) (v : Word) (outcome : Byte) :
    ∃ k trk replay entered, 0 < k ∧ syncRespond s r v outcome = uncount { s with
      dir := { s.dir with trk := trk, replay := replay }
      fab := { s.fab with
        entered := entered
        outbox := s.fab.outbox ++ List.replicate k (rspPacket s r 0x43 0x00 0
          (leBytes 8 v.toNat ++ [outcome] ++ List.replicate 7 0)) } } r := by
  simp only [syncRespond, respond, statusFault, true_or, if_true, hown, Bool.false_eq_true, if_false]
  refine ⟨_, _, _, _, ?_, rfl⟩
  split
  · exact hdel _ ‹_›
  · exact Nat.one_pos

/-- A performed operation that leaves the object as it is. -/
theorem Performing.respond {s : State} {n : Nat} {r : Req} {x : SyncObj} (h : Performing s n r x) (outcome : Byte) :
    AnsweredWith s (syncRespond s r x.value outcome) n r x outcome x.value := by
  obtain ⟨k, trk, replay, entered, hk, hframe⟩ := syncRespond_frame h.foreign h.delivered x.value outcome
  rw [hframe]
  refine ⟨(HomeWork.of_parts s _ _ s.sync s.ledger.rings).trans (homeWork_uncount _ r), ?_, ?_, h.alone, rfl, rfl, rfl⟩
  · exact ⟨_, List.mem_append_right _ (List.mem_replicate.mpr ⟨Nat.ne_of_gt hk, rfl⟩), rfl, rfl, rfl, rspPacket_status_ok s r _ _, rfl⟩
  · exact congrArg (Option.map fun o => o.value) h.object

/-- A new value of the object changes nothing else of what was answered. -/
theorem AnsweredWith.change {s u : State} {n : Nat} {r : Req} {x : SyncObj} {outcome : Byte} {v : Word}
    (h : AnsweredWith s u n r x outcome v) (v' : Word) : AnsweredWith s (changeSync u n v') n r x outcome v' := by
  rw [changeSync_of_no_waiter h.waiters]
  refine ⟨h.work.trans (homeWork_setSyncValue u n v'), h.answered, ?_, h.waiters, h.waiting, h.recalls, h.txns⟩
  obtain ⟨o, ho, -⟩ := Option.map_eq_some_iff.mp h.value
  rw [syncObjOf_setSyncValue, ho]
  rfl

theorem AnsweredWith.bell {s u : State} {n : Nat} {r : Req} {x : SyncObj} {outcome : Byte} {v : Word}
    (h : AnsweredWith s u n r x outcome v) (w : Word) : AnsweredWith s (objectBell u n w) n r x outcome v := by
  have hwork := h.work.trans (homeWork_objectBell u n w)
  rw [objectBell_frame] at hwork ⊢
  exact ⟨hwork, h.answered, h.value, h.waiters, h.waiting, h.recalls, h.txns⟩

/-! ### What each operation does (Table 6-10) -/

/-- The waiter that `addWaiter` adds: it waits from the arrival of its request on (R149). -/
def waiterOf (s : State) (r : Req) (k : SyncWait) (a : Word) (t : Nat) : SyncWaiter :=
  { n := syncNum r.gfa, req := r, kind := k, a := a
    until_ := (match trackOf s r.agent r.tag with
      | some e => e.arrived
      | none => s.time.now) + waitTimeout s t }

theorem addWaiter_eq (s : State) (r : Req) (k : SyncWait) (a : Word) (t : Nat) :
    addWaiter s r k a t = { s with sync := { s.sync with waiters := s.sync.waiters ++ [waiterOf s r k a t] } } := rfl

/-- From `s` to `u` an operation has been left to wait as `w`, and its object now holds `v`. -/
structure LeftWaiting (s u : State) (w : SyncWaiter) (v : Word) : Prop where
  work : HomeWork s u
  fab : u.fab = s.fab
  dir : u.dir = s.dir
  value : (syncObjOf u w.n).map (fun o => o.value) = some v
  waiters : u.sync.waiters = [w]

/-- A waiter that is alone and not met is not answered. -/
theorem LeftWaiting.meet {s u : State} {w : SyncWaiter} {v : Word} (h : LeftWaiting s u w v) (hm : waitMet w v = false) (k : Nat) :
    meetWaiters k u w.n = u := by
  obtain ⟨o, ho, hv⟩ := Option.map_eq_some_iff.mp h.value
  cases k with
  | zero => rfl
  | succ k => simp [meetWaiters, ho, hv, h.waiters, firstMet, hm]

/-- The operand of SYNC_ACQ as it is taken: at least 1. -/
def acqNeed (a : Word) : Word := if a.toInt < 1 then 1 else a

/-- The number of arrivals that SYNC_ARRIVE awaits: at least 1. -/
def arriveCount (a : Word) : Nat := if a.extractLsb' 0 32 = 0 then 1 else (a.extractLsb' 0 32).toNat

/-- As long as generation `g` is in the high half, an arrival of it is not met. -/
theorem waitMet_arrive_same {w : SyncWaiter} {g : BitVec 32} {old : Word} (hk : w.kind = .arrive g old) (c : BitVec 32) :
    waitMet w (g ++ c) = false := by
  have hgen : (g ++ c).extractLsb' 32 32 = g := BitVec.extractLsb'_append_eq_left
  simp [waitMet, hk, hgen]

theorem ite_imp_ite {c : Prop} [Decidable c] {p q p' q' : Prop} (hp : p → p') (hq : q → q') (h : if c then p else q) :
    if c then p' else q' := by
  by_cases hc : c
  · rw [if_pos hc] at h ⊢
    exact hp h
  · rw [if_neg hc] at h ⊢
    exact hq h

section
variable {s : State} {r : Req} {x : SyncObj} (h : Performing s (syncNum r.gfa) r x) (a b : Word) (t : Nat)
include h

theorem Performing.wait (k : SyncWait) : LeftWaiting s (addWaiter s r k a t) (waiterOf s r k a t) x.value := by
  refine ⟨.of_parts s s.dir s.fab _ s.ledger.rings, rfl, rfl, congrArg (Option.map fun o => o.value) h.object, ?_⟩
  rw [addWaiter_eq, h.alone]
  rfl

theorem syncPerform_ld : AnsweredWith s (syncPerform s r .ld a b t) (syncNum r.gfa) r x 0 x.value := by
  have hp : syncPerform s r .ld a b t = syncRespond s r x.value 0 := by simp only [syncPerform, h.object]
  rw [hp]
  exact h.respond 0

theorem syncPerform_st : AnsweredWith s (syncPerform s r .st a b t) (syncNum r.gfa) r x 0 a := by
  have hp : syncPerform s r .st a b t =
      objectBell (changeSync (syncRespond s r x.value 0) (syncNum r.gfa) a) (syncNum r.gfa) a := by
    simp only [syncPerform, h.object]
  rw [hp]
  exact ((h.respond 0).change a).bell a

theorem syncPerform_add : AnsweredWith s (syncPerform s r .add a b t) (syncNum r.gfa) r x 0 (x.value + a) := by
  have hp : syncPerform s r .add a b t = changeSync (syncRespond s r x.value 0) (syncNum r.gfa) (x.value + a) := by
    simp only [syncPerform, h.object]
  rw [hp]
  exact (h.respond 0).change _

theorem syncPerform_cas :
    AnsweredWith s (syncPerform s r .cas a b t) (syncNum r.gfa) r x 0 (if x.value = a then b else x.value) := by
  have hp : syncPerform s r .cas a b t = if x.value = a then changeSync (syncRespond s r x.value 0) (syncNum r.gfa) b
      else syncRespond s r x.value 0 := by simp only [syncPerform, h.object]
  rw [hp]
  split
  · exact (h.respond 0).change b
  · exact h.respond 0

theorem syncPerform_waitGe :
    if a.sle x.value then AnsweredWith s (syncPerform s r .waitGe a b t) (syncNum r.gfa) r x 0 x.value
    else LeftWaiting s (syncPerform s r .waitGe a b t) (waiterOf s r .ge a t) x.value := by
  have hp : syncPerform s r .waitGe a b t = if a.sle x.value then syncRespond s r x.value 0 else addWaiter s r .ge a t := by
    simp only [syncPerform, h.object, BitVec.sle_iff_toInt_le]
  rw [hp]
  split
  · exact h.respond 0
  · exact h.wait a t .ge

theorem syncPerform_waitNe :
    if x.value = a then LeftWaiting s (syncPerform s r .waitNe a b t) (waiterOf s r .ne a t) x.value
    else AnsweredWith s (syncPerform s r .waitNe a b t) (syncNum r.gfa) r x 0 x.value := by
  have hp : syncPerform s r .waitNe a b t = if x.value = a then addWaiter s r .ne a t else syncRespond s r x.value 0 := by
    simp only [syncPerform, h.object, ne_eq, ite_not]
  rw [hp]
  split
  · exact h.wait a t .ne
  · exact h.respond 0

theorem syncPerform_acq :
    if (acqNeed a).sle x.value then AnsweredWith s (syncPerform s r .acq a b t) (syncNum r.gfa) r x 0 (x.value - acqNeed a)
    else LeftWaiting s (syncPerform s r .acq a b t) (waiterOf s r .acq (acqNeed a) t) x.value := by
  have hp : syncPerform s r .acq a b t = if (acqNeed a).sle x.value then
      changeSync (syncRespond s r x.value 0) (syncNum r.gfa) (x.value - acqNeed a) else addWaiter s r .acq (acqNeed a) t := by
    simp only [syncPerform, h.object, h.alone, BitVec.sle_iff_toInt_le, List.any_nil, Bool.false_eq_true, not_false_eq_true,
      and_true, acqNeed]
  rw [hp]
  split
  · exact (h.respond 0).change _
  · exact h.wait _ t .acq

/-- An arrival that does not complete its generation `g` waits, counted, and is not met. -/
theorem Performing.arriveWait (g c : BitVec 32) (old : Word) :
    let u := addWaiter (setSyncValue s (syncNum r.gfa) (g ++ c)) r (.arrive g old) a t
    LeftWaiting s (meetWaiters u.sync.waiters.length u (syncNum r.gfa)) (waiterOf s r (.arrive g old) a t) (g ++ c) := by
  intro u
  have hset : Performing (setSyncValue s (syncNum r.gfa) (g ++ c)) (syncNum r.gfa) r { x with value := g ++ c } :=
    ⟨h.foreign, by rw [syncObjOf_setSyncValue, h.object]; rfl, h.alone, h.delivered⟩
  have hu := hset.wait a t (.arrive g old)
  have hmeet : meetWaiters u.sync.waiters.length u (syncNum r.gfa) = u := hu.meet (waitMet_arrive_same rfl c) _
  rw [hmeet]
  exact ⟨(homeWork_setSyncValue s _ _).trans hu.work, hu.fab, hu.dir, hu.value, hu.waiters⟩

theorem syncPerform_arrive :
    let g : BitVec 32 := x.value.extractLsb' 32 32
    let c : BitVec 32 := x.value.extractLsb' 0 32
    if (c.toNat + 1) % 2 ^ 32 = arriveCount a then
      AnsweredWith s (syncPerform s r .arrive a b t) (syncNum r.gfa) r x 0 ((g + 1) ++ (0 : BitVec 32))
    else LeftWaiting s (syncPerform s r .arrive a b t) (waiterOf s r (.arrive g x.value) a t) (g ++ (c + 1)) := by
  intro g c
  have hnext : BitVec.ofNat 32 (c.toNat + 1) = c + 1 := by
    rw [BitVec.ofNat_add, BitVec.ofNat_toNat, BitVec.setWidth_eq]
    rfl
  have hp : syncPerform s r .arrive a b t = if (c.toNat + 1) % 2 ^ 32 = arriveCount a then
      changeSync (syncRespond s r x.value 0) (syncNum r.gfa) ((g + 1) ++ (0 : BitVec 32))
      else
        let u := addWaiter (setSyncValue s (syncNum r.gfa) (g ++ (c + 1))) r (.arrive g x.value) a t
        meetWaiters u.sync.waiters.length u (syncNum r.gfa) := by
    rw [← hnext]
    simp only [syncPerform, h.object]
    rfl
  rw [hp]
  split
  · exact (h.respond 0).change _
  · exact h.arriveWait a t g (c + 1) x.value

end

/-! ### The commands -/

/-- What the commands' statement supposes: a calm home without any waiter takes an admitted operation on object `x`. -/
structure SyncTaken (s : State) (r : Req) (x : SyncObj) : Prop where
  calm : Calm s r
  alone : s.sync.waiters = []
  object : syncObjOf s (syncNum r.gfa) = some x
  admitted : syncAdmit s r = 0x00
  shaped : malformed r (.sync .ld 0 0 0) = false

/-- The operation performed on its arrival. -/
def performed (s : State) (r : Req) (k : SyncOp) (a b : Word) (t : Nat) : State :=
  syncPerform (entering s r (.sync k a b t)) r k a b t

section
variable {s : State} {r : Req} {x : SyncObj} (h : SyncTaken s r x)
include h

theorem SyncTaken.performing (o : Op) : Performing (entering s r o) (syncNum r.gfa) r x := by
  obtain ⟨⟨-, -, hnew, hforeign, -⟩, halone, hobject, -, -⟩ := h
  refine ⟨((homeWork_entering s r o).isOwn r).trans hforeign, ?_, (entering_sync s r o).symm ▸ halone, fun e he => ?_⟩
  · rw [syncObjOf, entering_sync]
    exact hobject
  · rw [trackOf_entering hnew] at he
    cases he
    exact Nat.one_pos

theorem SyncTaken.serve (k : SyncOp) (a b : Word) (t : Nat) (o : Op) :
    serve (entering s r o) r (.sync k a b t) = (syncPerform (entering s r o) r k a b t, true) := by
  have hshape : malformed r (.sync k a b t) = false := h.shaped
  have hadmit : syncAdmit (entering s r o) r = 0x00 := by
    rw [syncAdmit_of_homeWork (homeWork_entering s r o) (entering_sync s r o), h.admitted]
  simp [Machine.serve, hshape, hadmit]

/-- The operation that enters is performed at once, and whatever it leaves is the outcome. -/
theorem SyncTaken.settles {i : Instr} {k : SyncOp} {a b : Word} {t : Nat}
    (hi : exec i s = .next (settleAll (homeRequest s r (.sync k a b t))))
    (hw : HomeWork (entering s r (.sync k a b t)) (performed s r k a b t))
    (hr : (performed s r k a b t).dir.recalls = (entering s r (.sync k a b t)).dir.recalls) :
    Settles s i (served (performed s r k a b t)) ∧ HomeWork s (served (performed s r k a b t)) := by
  obtain ⟨-, -, -, -, -, hwaiting, hrecalls, -, htxns, -, -⟩ := h.calm
  have hpump : pump (entering s r (.sync k a b t)) = served (performed s r k a b t) := by
    refine pump_of_one (w := { req := r, op := .sync k a b t, since := s.time.now }) ?_ ?_ ?_ ?_ (h.serve k a b t _) ?_
    · rw [entering_waiting, hwaiting]
      rfl
    · rw [entering_txns, htxns]
    · rw [entering_recalls, hrecalls]
    · rw [entering_sync, h.alone]
    · rw [hr, entering_recalls, hrecalls]
  have hwork := ((homeWork_entering s r _).trans hw).trans (homeWork_served _)
  rw [homeRequest_of_calm h.calm, hpump] at hi
  exact ⟨⟨.inl hi, next_settleAll_of_quiet hwork hi⟩, hwork⟩

/-- An operation that is answered as it is performed. -/
theorem SyncTaken.answers {i : Instr} {k : SyncOp} {a b : Word} {t : Nat} {v : Word}
    (hi : exec i s = .next (settleAll (homeRequest s r (.sync k a b t))))
    (ha : AnsweredWith (entering s r (.sync k a b t)) (performed s r k a b t) (syncNum r.gfa) r x 0 v) :
    ∃ u, Settles s i u ∧ SyncAnswered u r x.value 0 ∧ (syncObjOf u (syncNum r.gfa)).map (fun o => o.value) = some v ∧
      u.sync.waiters = [] ∧ u.pool = s.pool := by
  obtain ⟨hsettles, hwork⟩ := h.settles hi ha.work ha.recalls
  exact ⟨_, hsettles, ha.answered, ha.value, ha.waiters, hwork.pool⟩

theorem SyncTaken.waiterOf_entering (o : Op) (k : SyncWait) (a : Word) (t : Nat) :
    waiterOf (entering s r o) r k a t =
      { n := syncNum r.gfa, req := r, kind := k, a := a, until_ := s.time.now + waitTimeout s t } := by
  obtain ⟨-, -, hnew, -⟩ := h.calm
  rw [waiterOf, trackOf_entering hnew, (homeWork_entering s r o).waitTimeout]

/-- An operation that waits once it is performed: no packet is formed. -/
theorem SyncTaken.waits {i : Instr} {k : SyncOp} {a b : Word} {t : Nat} {q : SyncWait} {op v : Word}
    (hi : exec i s = .next (settleAll (homeRequest s r (.sync k a b t))))
    (hl : LeftWaiting (entering s r (.sync k a b t)) (performed s r k a b t)
      (waiterOf (entering s r (.sync k a b t)) r q op t) v) :
    ∃ u, Settles s i u ∧ u.fab.outbox = s.fab.outbox ∧ (syncObjOf u (syncNum r.gfa)).map (fun o => o.value) = some v ∧
      u.sync.waiters = [{ n := syncNum r.gfa, req := r, kind := q, a := op, until_ := s.time.now + waitTimeout s t }] := by
  obtain ⟨hsettles, -⟩ := h.settles hi hl.work (congrArg (fun d => d.recalls) hl.dir)
  refine ⟨_, hsettles, ?_, hl.value, ?_⟩
  · rw [served_fab, hl.fab, entering_outbox]
  · rw [served_sync, hl.waiters, h.waiterOf_entering]

end

/-! ### A waiter's timeout -/

/-- What the object holds once a waiter's time has come: an arrival whose generation is the current one is withdrawn. -/
def valueAfterEnd (k : SyncWait) (v : Word) : Word :=
  match k with
  | .arrive g _ => if v.extractLsb' 32 32 = g then g ++ (v.extractLsb' 0 32 - 1) else v
  | _ => v

theorem dropWaiter_waiters {s : State} {w : SyncWaiter} (h : s.sync.waiters = [w]) : (dropWaiter s w).sync.waiters = [] := by
  simp [dropWaiter, h]

theorem endWaiter_answers {s : State} {w : SyncWaiter} {x : SyncObj} (h : Performing (dropWaiter s w) w.n w.req x) :
    AnsweredWith (dropWaiter s w) (endWaiter s w) w.n w.req x 1 (valueAfterEnd w.kind x.value) := by
  have hans := h.respond 1
  have hmeet : meetWaiters (syncRespond (dropWaiter s w) w.req x.value 1).sync.waiters.length
      (syncRespond (dropWaiter s w) w.req x.value 1) w.n = syncRespond (dropWaiter s w) w.req x.value 1 := by
    rw [hans.waiters]
    rfl
  cases hk : w.kind with
  | arrive g old =>
    simp only [endWaiter, h.object, hk, valueAfterEnd]
    split
    · exact hans.change _
    · exact hans
  | ge | ne | acq =>
    simp only [endWaiter, h.object, hk, hmeet]
    exact hans

theorem exec_syncTimeout {s : State} {w : SyncWaiter} (h : s.sync.waiters = [w]) (ht : w.until_ ≤ s.time.now) :
    exec (.syncTimeout w.req.agent w.req.tag) s = .next (settleAll (pump (endWaiter s w))) := by
  have harm : exec (.syncTimeout w.req.agent w.req.tag) s = execSyncTimeout w.req.agent w.req.tag s := rfl
  simp [harm, execSyncTimeout, h, ht]

/-! ### The obligation -/

/-- Settles O24: a request that enters alone is performed at once, a waiter that has ended leaves nothing waiting, and what either leaves
on the object is read off the operation. -/
theorem syncOperations : Obligations.SyncOperations := by
  unfold Obligations.SyncOperations
  refine ⟨fun s r x a b t hcalm halone hobject hadmit hshape => ?commands,
    fun s w x hwaiting hrecalls htxns hwaiters hforeign hlate hobject hdelivered => ?timeout⟩
  case commands =>
    have h : SyncTaken s r x := ⟨hcalm, halone, hobject, hadmit, hshape⟩
    intro answered value now waits need m g c
    refine ⟨h.answers rfl (syncPerform_ld (h.performing _) 0 0 0), h.answers rfl (syncPerform_add (h.performing _) a 0 0),
      h.answers rfl (syncPerform_st (h.performing _) a 0 0), h.answers rfl (syncPerform_cas (h.performing _) a b 0), ?_, ?_, ?_, ?_⟩
    · exact ite_imp_ite (h.answers rfl) (h.waits rfl) (syncPerform_waitGe (h.performing _) a 0 t.toNat)
    · exact ite_imp_ite (h.waits rfl) (h.answers rfl) (syncPerform_waitNe (h.performing _) a 0 t.toNat)
    · exact ite_imp_ite (h.answers rfl) (h.waits rfl) (syncPerform_acq (h.performing _) a 0 t.toNat)
    · exact ite_imp_ite (h.answers rfl) (h.waits rfl) (syncPerform_arrive (h.performing _) a 0 t.toNat)
  case timeout =>
    have hdrop : HomeWork s (dropWaiter s w) := .of_parts s s.dir s.fab _ s.ledger.rings
    have ha := endWaiter_answers (s := s) (w := w) ⟨hforeign, hobject, dropWaiter_waiters hwaiters, hdelivered⟩
    have hpump : pump (endWaiter s w) = dropLeases (endWaiter s w) :=
      pump_of_none (ha.waiting.trans hwaiting) (ha.txns.trans htxns) (ha.recalls.trans hrecalls)
    have hwork := (hdrop.trans ha.work).trans (homeWork_dropLeases _)
    have hexec := exec_syncTimeout hwaiters hlate
    rw [hpump] at hexec
    obtain ⟨p, hp, hopcode, hdst, htag, -, hdata⟩ := ha.answered
    exact ⟨_, ⟨hexec, next_settleAll_of_quiet hwork hexec⟩, ha.waiters, hwork.pool, ⟨p, hp, hopcode, hdst, htag, hdata⟩,
      ha.value⟩

end Sys2Proof.Machine
end

section
/-!
PROOFS. What lets go on whatever waited (`settleAll`) leaves the power and boot state as it is: one lemma for each function that it
runs, callees first. The boot state holds the flash record of retired units (R416), so settling changes no such record.
-/

namespace Sys2Proof.Machine

/-- Steps that each keep the boot state keep it together. -/
theorem boot_foldl {α : Type} {g : State → α → State} (h : ∀ t x, (g t x).boot = t.boot) (l : List α) (s : State) :
    (l.foldl g s).boot = s.boot :=
  List.foldlRecOn (motive := fun t => t.boot = s.boot) l g rfl fun t ht x _ => (h t x).trans ht

theorem boot_ite {p : Prop} [Decidable p] {s t u : State} (ht : t.boot = s.boot) (hu : u.boot = s.boot) :
    (if p then t else u).boot = s.boot := by
  split <;> assumption

theorem fst_boot_ite {β : Type} {p : Prop} [Decidable p] {s : State} {x y : State × β} (hx : x.1.boot = s.boot)
    (hy : y.1.boot = s.boot) : (if p then x else y).1.boot = s.boot := by
  split <;> assumption

/-! ### Fault records -/

@[simp] theorem addEvent_boot (s : State) (r : FaultRec) : (addEvent s r).boot = s.boot := by
  unfold addEvent
  split <;> rfl

@[simp] theorem addFault_boot (s : State) (r : FaultRec) : (addFault s r).boot = s.boot :=
  boot_ite rfl (addEvent_boot _ _)

@[simp] theorem statusFault_boot (s : State) (r : Req) (status : BitVec 8) : (statusFault s r status).boot = s.boot :=
  boot_ite rfl (addFault_boot _ _)

@[simp] theorem securityFault_boot (s : State) (info : Nat) : (securityFault s info).boot = s.boot := addFault_boot _ _

@[simp] theorem uncorrectable_boot (s : State) (g : Word) (r : Residence) : (uncorrectable s g r).boot = s.boot := addFault_boot _ _

/-! ### Packets on their way -/

@[simp] theorem passSnoop_boot (s : State) (k : Nat) (p : Packet) : (passSnoop s k p).boot = s.boot := rfl

@[simp] theorem flexSnoop_boot (s : State) (k : Nat) (p : Packet) : (flexSnoop s k p).boot = s.boot := by
  unfold flexSnoop
  split
  · rfl
  · exact boot_ite rfl rfl

@[simp] theorem flexFlushed_boot (s : State) (k : Nat) (p : Packet) : (flexFlushed s k p).boot = s.boot := rfl

@[simp] theorem flexRetry_boot (s : State) (k : Nat) (x : FlexSent) (epoch : Epoch) : (flexRetry s k x epoch).boot = s.boot := by
  unfold flexRetry
  split <;> rfl

@[simp] theorem releaseSnoops_boot (s : State) (k : Nat) : (releaseSnoops s k).boot = s.boot := by
  unfold releaseSnoops
  split
  · rfl
  · exact boot_foldl (fun _ _ => passSnoop_boot _ _ _) _ _

@[simp] theorem flexAck_boot (s : State) (k : Nat) (tag : Tag) : (flexAck s k tag).boot = s.boot := by
  unfold flexAck
  split
  · rfl
  · split
    · rfl
    · exact boot_ite rfl rfl

@[simp] theorem flexResponse_boot (s : State) (k : Nat) (p : Packet) : (flexResponse s k p).boot = s.boot := by
  unfold flexResponse
  simp only
  split
  · exact flexRetry_boot _ _ _ _
  · exact boot_ite ((releaseSnoops_boot _ _).trans (boot_ite rfl rfl)) (flexAck_boot _ _ _)

@[simp] theorem toFlex_boot (s : State) (k : Nat) (p : Packet) : (toFlex s k p).boot = s.boot :=
  boot_ite (flexSnoop_boot s k p) (boot_ite rfl (boot_ite rfl (flexResponse_boot s k p)))

@[simp] theorem place_boot (s : State) (n : Nat) (o : Option Origin) (p : Packet) : (place s n o p).boot = s.boot :=
  boot_ite rfl (boot_ite rfl (toFlex_boot s _ p))

@[simp] theorem countHop_boot (s : State) (n : Nat) : (countHop s n).boot = s.boot := boot_ite rfl rfl

@[simp] theorem countMcast_boot (s : State) (n : Nat) : (countMcast s n).boot = s.boot := boot_ite rfl rfl

@[simp] theorem freeOrigin_boot (s : State) (o : Option Origin) (slots : Nat) : (freeOrigin s o slots).boot = s.boot := by
  unfold freeOrigin
  split
  · rfl
  · exact boot_ite rfl (boot_ite rfl rfl)

@[simp] theorem routeMulticast_boot (s : State) (o : Option Origin) (p : Packet) : (routeMulticast s o p).boot = s.boot := by
  unfold routeMulticast
  split
  · split
    · exact countMcast_boot _ _
    · rfl
  · have hplaced := boot_foldl (g := fun s n => place s n o (if agentPort s n then p else { p with hops := p.hops - 1 }))
      (fun _ _ => place_boot _ _ _ _)
    exact boot_ite (hplaced _ _) (hplaced _ _)

@[simp] theorem deliver_boot (s : State) (o : Option Origin) (p : Packet) : (deliver s o p).boot = s.boot := boot_ite rfl rfl

@[simp] theorem sendNotice_boot (s : State) (a : AgentId) (room : RoomId) (ps : List Packet) :
    (sendNotice s a room ps).boot = s.boot := rfl

@[simp] theorem reportFlush_boot (s : State) (ps : List Packet) : (reportFlush s ps).boot = s.boot :=
  boot_foldl (fun _ _ => boot_foldl (fun _ _ => sendNotice_boot _ _ _ _) _ _) _ _

@[simp] theorem flushOne_boot (s : State) (n : Nat) (p : Packet) : (flushOne s n p).boot = s.boot :=
  (reportFlush_boot _ _).trans (boot_ite rfl rfl)

@[simp] theorem forward_boot (s : State) (o : Option Origin) (p : Packet) : (forward s o p).boot = s.boot := by
  unfold forward
  refine boot_ite (routeMulticast_boot s o p) ?_
  split
  case h_1 => exact deliver_boot s o p
  case h_2 =>
    refine boot_ite (place_boot _ _ _ _) (boot_ite ?_ (place_boot _ _ _ _))
    split
    · exact countHop_boot _ _
    · rfl
  case h_3 => exact flushOne_boot _ _ _
  case h_4 | h_5 => rfl

@[simp] theorem routeUnrouted_boot (s : State) : (routeUnrouted s).boot = s.boot :=
  boot_foldl (fun _ _ => (freeOrigin_boot _ _ _).trans (forward_boot _ _ _)) _ _

/-! ### Stored units -/

@[simp] theorem putContents_boot (s : State) (cut : Option (BitVec 32)) (tile : Nat) (cells : List Host.Cell)
    (marks : List (Nat × Mark)) : (putContents s cut tile cells marks).boot = s.boot := by
  unfold putContents
  split <;> rfl

@[simp] theorem poisonLine_boot (s : State) (u : StoredUnit) (c : Contents) (line : Nat) (forged : Bool) :
    (poisonLine s u c line forged).boot = s.boot := by
  unfold poisonLine
  exact boot_ite (by simp) (by simp)

@[simp] theorem poisonContents_boot (s : State) (cut : Option (BitVec 32)) (tile : Nat) (c : Contents) (forged : Bool) :
    (poisonContents s cut tile c forged).boot = s.boot := by
  unfold poisonContents
  cases cut <;> exact boot_ite (by simp) (by simp)

@[simp] theorem loseUnit_boot (s : State) (u : StoredUnit) (c : Contents) : (loseUnit s u c).boot = s.boot := by
  unfold loseUnit
  split
  · exact poisonLine_boot _ _ _ _ _
  · refine boot_foldl (fun t j => ?_) _ _
    split
    · exact poisonLine_boot _ _ _ _ _
    · rfl
  · exact poisonContents_boot _ _ _ _ _

@[simp] theorem alterLine_boot (s : State) (u : StoredUnit) (c : Contents) (d : List Byte) (m : Option Mark) :
    (alterLine s u c d m).1.boot = s.boot := by
  unfold alterLine
  simp only
  split
  · exact putContents_boot _ _ _ _ _
  · split
    · exact poisonLine_boot _ _ _ _ _
    · exact putContents_boot _ _ _ _ _

@[simp] theorem alterMac_boot (s : State) (u : StoredUnit) (d : List Byte) : (alterMac s u d).boot = s.boot := by
  refine boot_foldl (fun t x => ?_) _ _
  split
  · rfl
  · exact boot_ite rfl (poisonLine_boot _ _ _ _ _)

@[simp] theorem alterImage_boot (s : State) (u : StoredUnit) (c : Contents) (i : Image) (d : List Byte) (errors : Nat) :
    (alterImage s u c i d errors).1.boot = s.boot := by
  unfold alterImage
  simp only
  split
  · exact putContents_boot _ _ _ _ _
  · exact poisonContents_boot _ _ _ _ _

@[simp] theorem takeUnit_boot (s : State) (u : StoredUnit) (c : Contents) (old : List Byte × Option Mark) (d : List Byte)
    (m : Option Mark) (n : Nat) : (takeUnit s u c old d m n).1.boot = s.boot := by
  have hcount : (if n = 0 then s else { s with pool := { s.pool with corrected := s.pool.corrected + 1 } }).boot = s.boot :=
    boot_ite rfl rfl
  unfold takeUnit
  simp only
  split
  · exact hcount
  · split
    · exact (alterLine_boot _ _ _ _ _).trans hcount
    · split
      · exact hcount
      · exact (alterMac_boot _ _ _).trans hcount
    · split
      · exact hcount
      · exact (alterImage_boot _ _ _ _ _ _).trans hcount
    · exact hcount

@[simp] theorem checkUnit_boot (s : State) (u : StoredUnit) : (checkUnit s u).1.boot = s.boot := by
  unfold checkUnit
  split
  · rfl
  · simp only
    split
    · split
      · exact loseUnit_boot _ _ _
      · exact takeUnit_boot _ _ _ _ _ _ _
    · rfl

@[simp] theorem checkUnits_boot (s : State) (us : List StoredUnit) : (checkUnits s us).1.boot = s.boot := by
  refine List.foldlRecOn (motive := fun p : State × Nat × Nat => p.1.boot = s.boot) us _ rfl fun p hp u _ => ?_
  have hu : (checkUnit p.1 u).1.boot = s.boot := (checkUnit_boot p.1 u).trans hp
  split <;> simp_all

@[simp] theorem checkLine_boot (s : State) (cut : Option (BitVec 32)) (line : Nat) : (checkLine s cut line).boot = s.boot :=
  checkUnits_boot _ _

/-! ### Tiles and the pool -/

@[simp] theorem newHead_boot (s : State) (r : RoomId) (x : Extent) (res : Residence) : (newHead s r x res).1.boot = s.boot := by
  unfold newHead
  split
  · rfl
  · split
    · rfl
    · split
      · rfl
      · split <;> rfl

@[simp] theorem cowBefore_boot (s : State) (tile : Nat) : (cowBefore s tile).boot = s.boot := by
  unfold cowBefore
  split
  · split
    · simp only [updTile_boot]
      split <;> exact newHead_boot _ _ _ _
    · rfl
  · rfl

@[simp] theorem touchTile_boot (s : State) (g : Word) : (touchTile s g).boot = s.boot := cowBefore_boot s _

@[simp] theorem recodeAt_boot (s : State) (cut : Option (BitVec 32)) (tile : Nat) : (recodeAt s cut tile).boot = s.boot := by
  unfold recodeAt
  split
  · refine boot_ite rfl ?_
    cases cut <;> exact boot_ite rfl rfl
  · rfl

@[simp] theorem poolWrite_boot (s : State) (g : Word) (data : List Byte) : (poolWrite s g data).boot = s.boot := by
  simp [poolWrite, recode]

@[simp] theorem poolWriteLine_boot (s : State) (line : Nat) (data : List Byte) : (poolWriteLine s line data).boot = s.boot := by
  simp [poolWriteLine]

@[simp] theorem countAccess_boot (s : State) (g : Word) : (countAccess s g).boot = s.boot := boot_ite rfl rfl

/-! ### Answers -/

@[simp] theorem renewLease_boot (s : State) (a : AgentId) : (renewLease s a).boot = s.boot := by rw [renewLease_frame]

@[simp] theorem openAttach_boot (s : State) (r : Req) (opcode : BitVec 8) : (openAttach s r opcode).boot = s.boot := by
  rw [openAttach_frame]

@[simp] theorem reopenAttach_boot (s : State) (r : Req) (opcode : BitVec 8) : (reopenAttach s r opcode).boot = s.boot :=
  boot_ite rfl (openAttach_boot s r opcode)

@[simp] theorem respondMalformed_boot (s : State) (r : Req) (opcode : BitVec 8) (data : List Byte) :
    (respondMalformed s r opcode data).boot = s.boot := by
  unfold respondMalformed
  split <;> simp [enqueue]

@[simp] theorem ownAnswer_boot (s : State) (tag : Tag) (gen : Gen) (status : BitVec 8) (data : List Byte) :
    (ownAnswer s tag gen status data).boot = s.boot := by
  unfold ownAnswer
  split
  · rfl
  · exact boot_ite rfl (boot_ite rfl rfl)

@[simp] theorem respond_boot (s : State) (r : Req) (opcode status : BitVec 8) (grant : BitVec 2) (data : List Byte) :
    (respond s r opcode status grant data).boot = s.boot :=
  (boot_ite (ownAnswer_boot _ _ _ _ _) rfl).trans (statusFault_boot s r status)

@[simp] theorem respondErr_boot (s : State) (r : Req) (o : Op) (status : BitVec 8) : (respondErr s r o status).boot = s.boot :=
  respond_boot _ _ _ _ _ _

@[simp] theorem granted_boot (s : State) (a : AgentId) (line : Nat) : (granted s a line).boot = s.boot := renewLease_boot _ _

@[simp] theorem sendLine_boot (s : State) (r : Req) (o : Op) (grant : BitVec 2) : (sendLine s r o grant).boot = s.boot := by
  simp [sendLine]

/-! ### The directory, and requests performed at the home -/

@[simp] theorem useEntry_boot (s : State) (line : Nat) : (useEntry s line).boot = s.boot := rfl

@[simp] theorem dropEntry_boot (s : State) (line : Nat) : (dropEntry s line).boot = s.boot := rfl

@[simp] theorem setEntry_boot (s : State) (line : Nat) (st : DirSt) (ptrs : List AgentId) : (setEntry s line st ptrs).boot = s.boot := by
  unfold setEntry
  split <;> rfl

@[simp] theorem dropTxn_boot (s : State) (t : Txn) : (dropTxn s t).boot = s.boot := rfl

@[simp] theorem sendSnoop_boot (s : State) (k : Snoop) (line : Nat) (room : RoomId) (wcls : BitVec 2) (tag : Tag) (a : AgentId) :
    (sendSnoop s k line room wcls tag a).boot = s.boot := rfl

@[simp] theorem startTxn_boot (s : State) (line : Nat) (k : Snoop) (targets : List AgentId) (group : Bool) (x : Option AgentId)
    (cause : Option (Req × Op)) (why : Option Recall) (madeFor : Option (AgentId × Tag)) :
    (startTxn s line k targets group x cause why madeFor).boot = s.boot :=
  boot_ite rfl (boot_foldl (fun _ _ => sendSnoop_boot _ _ _ _ _ _ _) _ _)

@[simp] theorem performLoad_boot (s : State) (r : Req) (o : Op) : (performLoad s r o).boot = s.boot :=
  boot_ite (by simp) (by simp)

@[simp] theorem performSnapLoad_boot (s : State) (r : Req) (h : BitVec 16) : (performSnapLoad s r h).boot = s.boot := by
  unfold performSnapLoad
  simp only
  split
  · exact respondErr_boot _ _ _ _
  · rename_i x hx
    cases hy : retainedFor s x.cut (tileKey r.gfa) with
    | none => simp [hy]
    | some y =>
      simp only
      split
      · refine boot_ite (by simp) (boot_ite (by simp) ?_)
        split <;> simp
      · simp

@[simp] theorem performWrite_boot (s : State) (r : Req) (o : Op) : (performWrite s r o).boot = s.boot := by
  unfold performWrite
  refine boot_ite (by simp) ?_
  cases o with
  | st data => exact (respond_boot _ _ _ _ _ _).trans (boot_ite (by simp) (by simp))
  | amo aop a => exact boot_ite (by simp) (by simp)
  | cas c w => exact boot_ite (by simp) ((respond_boot _ _ _ _ _ _).trans (boot_ite (by simp) (by simp)))
  | _ => simp

@[simp] theorem finishCause_boot (s : State) (t : Txn) (r : Req) (o : Op) : (finishCause s t r o).boot = s.boot := by
  unfold finishCause
  cases o with
  | rdS => simp
  | rdU | upg => cases entryOf s t.line <;> exact boot_ite (by simp) (by simp)
  | ld v =>
    simp only [performLoad_boot]
    split
    · split <;> rfl
    · rfl
  | ldSnap h => exact performSnapLoad_boot _ _ _
  | st | amo | cas => simp
  | sync => rfl

@[simp] theorem finishTxn_boot (s : State) (t : Txn) : (finishTxn s t).boot = s.boot := by
  unfold finishTxn
  cases t.cause with
  | some c =>
    simp only [finishCause_boot, dropTxn_boot]
    split <;> simp
  | none => cases t.data <;> exact boot_ite (by simp) (by simp)

@[simp] theorem checkTxn_boot (s : State) (tag : Tag) : (checkTxn s tag).boot = s.boot := by
  unfold checkTxn
  split
  · exact boot_ite (finishTxn_boot _ _) rfl
  · rfl

@[simp] theorem snoopThen_boot (s : State) (line : Nat) (k : Snoop) (targets : List AgentId) (group : Bool) (x : Option AgentId)
    (cause : Option (Req × Op)) (why : Option Recall) (madeFor : Option (AgentId × Tag)) :
    (snoopThen s line k targets group x cause why madeFor).boot = s.boot := by
  simp [snoopThen]

@[simp] theorem recallNow_boot (s : State) (line : Nat) (why : Recall) (madeFor : Option (AgentId × Tag)) :
    (recallNow s line why madeFor).boot = s.boot := by
  unfold recallNow
  refine boot_ite (snoopThen_boot _ _ _ _ _ _ _ _ _) ?_
  split
  · rfl
  · split <;> exact snoopThen_boot _ _ _ _ _ _ _ _ _

@[simp] theorem startRecalls_boot (s : State) : (startRecalls s).boot = s.boot := by
  refine (boot_foldl (fun t x => ?_) _ _ :)
  split <;> simp

@[simp] theorem startTileRecall_boot (s : State) (tile : Nat) : (startTileRecall s tile).boot = s.boot := by
  unfold startTileRecall
  split
  · rfl
  · exact boot_ite rfl (startRecalls_boot _)

@[simp] theorem finishReady_boot (s : State) : (finishReady s).boot = s.boot := boot_foldl checkTxn_boot _ _

@[simp] theorem dropLeases_boot (s : State) : (dropLeases s).boot = s.boot := rfl

/-! ### Sync objects -/

@[simp] theorem syncRespond_boot (s : State) (r : Req) (v : Word) (outcome : Byte) : (syncRespond s r v outcome).boot = s.boot :=
  respond_boot _ _ _ _ _ _

@[simp] theorem objectBell_boot (s : State) (n : Nat) (v : Word) : (objectBell s n v).boot = s.boot := by rw [objectBell_frame]

@[simp] theorem addWaiter_boot (s : State) (r : Req) (k : SyncWait) (a : Word) (t : Nat) : (addWaiter s r k a t).boot = s.boot := rfl

@[simp] theorem meetWaiter_boot (s : State) (n : Nat) (v : Word) (w : SyncWaiter) : (meetWaiter s n v w).boot = s.boot := by
  unfold meetWaiter
  split <;> exact syncRespond_boot _ _ _ _

@[simp] theorem meetWaiters_boot (k : Nat) (s : State) (n : Nat) : (meetWaiters k s n).boot = s.boot := by
  induction k generalizing s with
  | zero => rfl
  | succ k ih =>
    unfold meetWaiters
    split
    · rfl
    · split
      · rfl
      · rw [ih, meetWaiter_boot]

@[simp] theorem changeSync_boot (s : State) (n : Nat) (v : Word) : (changeSync s n v).boot = s.boot := meetWaiters_boot _ _ _

@[simp] theorem syncPerform_boot (s : State) (r : Req) (k : SyncOp) (a b : Word) (t : Nat) : (syncPerform s r k a b t).boot = s.boot := by
  unfold syncPerform
  simp only
  cases syncObjOf s (syncNum r.gfa) with
  | none => exact respondErr_boot _ _ _ _
  | some o =>
    cases k with
    | ld | st | add => simp
    | cas | waitGe | waitNe | acq | arrive => exact boot_ite (by simp) (by simp)

/-! ### The home takes requests -/

@[simp] theorem serveBusy_boot (s : State) (t : Txn) (r : Req) (o : Op) : (serveBusy s t r o).1.boot = s.boot := by
  unfold serveBusy
  refine fst_boot_ite rfl ?_
  cases o with
  | ld v => exact performLoad_boot _ _ _
  | ldSnap h => exact performSnapLoad_boot _ _ _
  | rdS =>
    cases entryOf s t.line with
    | none => rfl
    | some e =>
      refine fst_boot_ite rfl ?_
      simp only [sendSnoop_boot, updTxn_boot, sendLine_boot]
      exact boot_ite rfl rfl
  | _ => rfl

@[simp] theorem grantNew_boot (s : State) (r : Req) (o : Op) (st : DirSt) (g : BitVec 2) : (grantNew s r o st g).1.boot = s.boot := by
  unfold grantNew
  simp only
  split
  · simp
  · split
    · rfl
    · split <;> simp

@[simp] theorem snoopFor_boot (s : State) (r : Req) (o : Op) (k : Snoop) (targets : List AgentId) (group : Bool)
    (x : Option AgentId) : (snoopFor s r o k targets group x).1.boot = s.boot := by
  unfold snoopFor
  split <;> simp

@[simp] theorem serveIdle_boot (s : State) (r : Req) (o : Op) : (serveIdle s r o).1.boot = s.boot := by
  unfold serveIdle
  refine fst_boot_ite ?_ ?_
  · split <;> simp
  · cases entryOf s (lineKey r.gfa) with
    | none => cases o <;> simp
    | some e =>
      have hsent (u : State) (g : BitVec 2) (hu : u.boot = s.boot) : (sendLine u r o g).boot = s.boot := (sendLine_boot u r o g).trans hu
      obtain ⟨-, st, -, -, ptrs, -, -⟩ := e
      cases st with
      | shared => cases o with
        | rdS => exact fst_boot_ite (hsent _ _ rfl) (fst_boot_ite (hsent _ _ (by simp)) (hsent _ _ (by simp)))
        | ld v => exact performLoad_boot _ _ _
        | ldSnap h => exact performSnapLoad_boot _ _ _
        | _ => exact snoopFor_boot _ _ _ _ _ _ _
      | broadcast => cases o with
        | rdS => exact hsent _ _ rfl
        | ld v => exact performLoad_boot _ _ _
        | ldSnap h => exact performSnapLoad_boot _ _ _
        | _ => exact snoopFor_boot _ _ _ _ _ _ _
      | unique => cases o with
        | rdS => exact fst_boot_ite (hsent _ _ (by simp)) (snoopFor_boot _ _ _ _ _ _ _)
        | rdU | upg => exact fst_boot_ite (hsent _ _ rfl) (snoopFor_boot _ _ _ _ _ _ _)
        | ldSnap h => exact performSnapLoad_boot _ _ _
        | _ => exact snoopFor_boot _ _ _ _ _ _ _

@[simp] theorem serve_boot (s : State) (r : Req) (o : Op) : (serve s r o).1.boot = s.boot := by
  unfold serve
  split
  · simp
  · split
    · simp only
      split <;> simp
    · simp only
      split
      · simp
      · split
        · simp
        · split
          · rfl
          · split <;> simp

@[simp] theorem pumpScan_boot (s : State) (before l : List Waiting) : (pumpScan s before l).1.boot = s.boot := by
  induction l generalizing s before with
  | nil => rfl
  | cons w l ih =>
    unfold pumpScan
    split
    · exact ih _ _
    · simp only
      split
      · exact serve_boot _ _ _
      · rw [ih, serve_boot]

@[simp] theorem pumpLoop_boot (n : Nat) (s : State) : (pumpLoop n s).boot = s.boot := by
  induction n generalizing s with
  | zero => rfl
  | succ n ih =>
    have hscan := pumpScan_boot s [] s.dir.waiting
    unfold pumpLoop
    split <;> simp_all

@[simp] theorem pump_boot (s : State) : (pump s).boot = s.boot := by simp [pump]

@[simp] theorem enterSlice_boot (s : State) (r : Req) (o : Op) : (enterSlice s r o).boot = s.boot := by
  unfold enterSlice
  simp only [pump_boot]
  split
  · exact boot_ite (startTileRecall_boot _ _) rfl
  · rfl

theorem arrive_boot (s : State) (r : Req) (opcode rsp : BitVec 8) (err : List Byte) {f : State → State}
    (hf : ∀ t, (f t).boot = t.boot) : (arrive s r opcode rsp err f).boot = s.boot := by
  unfold arrive
  simp only
  split <;> simp [hf, openTrack]

@[simp] theorem homeRequest_boot (s : State) (r : Req) (o : Op) : (homeRequest s r o).boot = s.boot :=
  boot_ite rfl (boot_ite (arrive_boot _ _ _ _ _ fun _ => enterSlice_boot _ _ _) (boot_ite (by simp) rfl))

/-! ### The switch's own requests, and the mirror -/

@[simp] theorem launch_boot (s : State) (q : OwnReq) : (launch s q).boot = s.boot := boot_ite (homeRequest_boot _ _ _) rfl

@[simp] theorem sendOwn_boot (s : State) (q : OwnReq) (slot : Nat) : (sendOwn s q slot).boot = s.boot := launch_boot _ _

@[simp] theorem issueOne_boot (s : State) (q : OwnReq) : (issueOne s q).boot = s.boot := by
  unfold issueOne
  refine boot_ite rfl ?_
  split
  · exact sendOwn_boot _ _ _
  · rfl

@[simp] theorem issueAsks_boot (s : State) : (issueAsks s).boot = s.boot := boot_foldl issueOne_boot _ _

@[simp] theorem askOwn_boot (s : State) (who : OwnFor) (engine : Nat) (op : Op) (g : Word) (n : Nat) (room : RoomId)
    (ocls wcls : BitVec 2) : (askOwn s who engine op g n room ocls wcls).boot = s.boot := issueAsks_boot _

@[simp] theorem mirrorSend_boot (s : State) (area index from_ : Nat) (l : List Byte) : (mirrorSend s area index from_ l).boot = s.boot :=
  boot_foldl (fun _ _ => askOwn_boot _ _ _ _ _ _ _ _ _) _ _

@[simp] theorem mirrorWrite_boot (s : State) (area index : Nat) (v : BitVec 1024) (from_ n : Nat) :
    (mirrorWrite s area index v from_ n).boot = s.boot := boot_ite (mirrorSend_boot _ _ _ _ _) rfl

@[simp] theorem journal_boot (s : State) (kind v : Nat) : (journal s kind v).boot = s.boot :=
  boot_ite rfl (mirrorWrite_boot _ _ _ _ _ _)

/-! ### Movers -/

@[simp] theorem putRec_boot (s : State) (kind : Nat) (x : MapRec) : (putRec s kind x).boot = s.boot := journal_boot _ _ _

@[simp] theorem recordCommit_boot (s : State) (tile : Nat) (w : Word) : (recordCommit s tile w).1.boot = s.boot := by
  unfold recordCommit
  split <;> simp

@[simp] theorem answerQuery_boot (s : State) (tile : Nat) (w : Word) : (answerQuery s tile w).1.boot = s.boot := by
  unfold answerQuery
  split <;> simp

@[simp] theorem dropUnits_boot (s : State) (cut : Option (BitVec 32)) (tile : Nat) : (dropUnits s cut tile).boot = s.boot := rfl

@[simp] theorem poisonLost_boot (s : State) (m : Mover) : (poisonLost s m).boot = s.boot := by
  unfold poisonLost
  split <;> simp

@[simp] theorem putMover_boot (s : State) (m : Mover) : (putMover s m).boot = s.boot := by
  unfold putMover
  split <;> rfl

@[simp] theorem countMoved_boot (s : State) (work : Option Nat) (moved : Bool) : (countMoved s work moved).boot = s.boot := by
  unfold countMoved
  split <;> rfl

@[simp] theorem countLate_boot (s : State) (m : Mover) : (countLate s m).boot = s.boot := by
  unfold countLate
  split
  · rfl
  · split
    · rfl
    · exact boot_ite rfl rfl

@[simp] theorem settleDest_boot (s : State) (m : Mover) : (settleDest s m).boot = s.boot := by
  unfold settleDest
  cases m.dest with
  | none => rfl
  | some d =>
    simp only [pump_boot, countMoved_boot, countLate_boot]
    cases m.cut <;> exact boot_ite (by simp) (by simp)

@[simp] theorem endMove_boot (s : State) (m m' : Mover) : (endMove s m m').boot = s.boot := by
  simp only [endMove, putMover_boot]
  split <;> rfl

@[simp] theorem settleSource_boot (s : State) (m : Mover) : (settleSource s m).boot = s.boot := by simp [settleSource]

@[simp] theorem askMap_boot (s : State) (m : Mover) : (askMap s m).boot = s.boot := by
  unfold askMap
  split
  · refine boot_ite rfl (boot_ite rfl (boot_ite ((settleDest_boot _ _).trans ?_) ((settleSource_boot _ _).trans ?_)))
    all_goals exact fst_boot_ite (recordCommit_boot _ _ _) (fst_boot_ite (answerQuery_boot _ _ _) rfl)
  · rfl

@[simp] theorem askAgain_boot (s : State) : (askAgain s).boot = s.boot := boot_foldl askMap_boot _ _

/-! ### Results, revocations, domain changes, commits -/

@[simp] theorem finish_boot (s : State) (e : Nat) (r : Final) : (finish s e r).boot = s.boot := rfl

@[simp] theorem finishDone_boot (s : State) (e r16 r24 : Nat) : (finishDone s e r16 r24).boot = s.boot := rfl

@[simp] theorem finishStatus_boot (s : State) (e : Nat) (st : Stat) (r16 r24 : Nat) : (finishStatus s e st r16 r24).boot = s.boot :=
  boot_ite rfl rfl

@[simp] theorem applyPins_boot (s : State) (en : Entry) : (applyPins s en).boot = s.boot := boot_ite rfl rfl

@[simp] theorem settleMigrates_boot (s : State) : (settleMigrates s).boot = s.boot :=
  boot_foldl (fun _ _ => (applyPins_boot _ _).trans (finishDone_boot _ _ _ _)) _ _

@[simp] theorem reclaim_boot (s : State) : (reclaim s).boot = s.boot := by
  unfold reclaim
  split <;> rfl

@[simp] theorem reclaimAll_boot (n : Nat) (s : State) : (reclaimAll n s).boot = s.boot := by
  induction n generalizing s with
  | zero => rfl
  | succ n ih => rw [reclaimAll, ih, reclaim_boot]

@[simp] theorem freeExtent_boot (s : State) (x : Extent) : (freeExtent s x).boot = s.boot :=
  (reclaimAll_boot _ _).trans (journal_boot _ _ _)

@[simp] theorem settleRevokes_boot (s : State) : (settleRevokes s).boot = s.boot :=
  (boot_foldl (fun _ _ => finishDone_boot _ _ _ _) _ _).trans (boot_foldl freeExtent_boot _ _)

@[simp] theorem putDomain_boot (s : State) (r : RoomId) (d : Byte) (agents : List AgentId) : (putDomain s r d agents).boot = s.boot :=
  journal_boot _ _ _

@[simp] theorem askRecall_boot (s : State) (line : Nat) (why : Recall) : (askRecall s line why).boot = s.boot := rfl

@[simp] theorem settleChange_boot (s : State) (c : DomChange) : (settleChange s c).boot = s.boot := by
  unfold settleChange
  refine boot_ite ?_ ((pump_boot _).trans (boot_foldl (fun _ _ => askRecall_boot _ _ _) _ _))
  cases c.e with
  | none => exact putDomain_boot _ _ _ _
  | some e => exact boot_ite (putDomain_boot _ _ _ _) (putDomain_boot _ _ _ _)

@[simp] theorem countClamps_boot (s : State) (r : BitVec 12) (op count byte : Nat) : (countClamps s r op count byte).boot = s.boot :=
  boot_ite rfl rfl

@[simp] theorem recordClamps_boot (s : State) (en : Entry) (n : Nat) : (recordClamps s en n).boot = s.boot :=
  boot_ite rfl (countClamps_boot _ _ _ _ _)

@[simp] theorem recordApplied_boot (s : State) (en : Entry) (a b : Nat) : (recordApplied s en a b).boot = s.boot := rfl

@[simp] theorem installEpoch_boot (s : State) (r : RoomId) (c : Commit) : (installEpoch s r c).boot = s.boot :=
  (routeUnrouted_boot _).trans (journal_boot _ _ _)

@[simp] theorem startCommit_boot (s : State) (r : RoomId) (c : Commit) : (startCommit s r c).boot = s.boot := by
  unfold startCommit
  split
  · refine (boot_foldl (fun _ _ => say_boot _ _) _ _).trans ((installEpoch_boot _ _ _).trans ?_)
    rw [updRoom_boot]
    split
    · exact recordClamps_boot _ _ _
    · rfl
  · rfl

@[simp] theorem finishCompose_boot (s : State) (e : Option Nat) (v : Nat) : (finishCompose s e v).boot = s.boot := by
  unfold finishCompose
  split <;> rfl

@[simp] theorem endCommit_boot (s : State) (r : RoomId) (c : Commit) : (endCommit s r c).boot = s.boot := by
  have hstart (u : State) (w : Commit) (hu : u.boot = s.boot) : (startCommit u r w).boot = s.boot := (startCommit_boot u r w).trans hu
  have hdone : (finishCompose s c.e c.epoch.toNat).boot = s.boot := finishCompose_boot _ _ _
  unfold endCommit
  simp only
  split
  · split
    · exact hstart _ _ hdone
    · exact hdone
  · split
    · split
      · exact hstart _ _ hdone
      · exact hdone
    · exact hdone

@[simp] theorem settleCommits_boot (s : State) : (settleCommits s).boot = s.boot := by
  refine (boot_foldl (fun t x => ?_) _ _ :)
  split
  · exact boot_ite (endCommit_boot _ _ _) rfl
  · rfl

@[simp] theorem settle_boot (s : State) : (settle s).boot = s.boot := by
  simp [settle, boot_foldl settleChange_boot]

/-! ### Streams and evacuation -/

@[simp] theorem bookEvac_boot (s : State) (m : Mover) : (bookEvac s m).boot = s.boot := by
  unfold bookEvac
  split
  · rfl
  · simp only
    split
    · exact boot_ite rfl (putMover_boot _ _)
    · refine boot_ite (putMover_boot _ _) ?_
      split
      · exact boot_ite rfl (putMover_boot _ _)
      · rfl

@[simp] theorem pushEvac_boot (s : State) : (pushEvac s).boot = s.boot := boot_foldl bookEvac_boot _ _

@[simp] theorem updLayer_boot (s : State) (e i : Nat) (f : Layer → Layer) : (updLayer s e i f).boot = s.boot := rfl

@[simp] theorem releaseLayer_boot (s : State) (e : Nat) (x : Layer × Nat) : (releaseLayer s e x).boot = s.boot := by
  unfold releaseLayer
  split
  · rfl
  · exact boot_ite rfl rfl

@[simp] theorem endByDrain_boot (s : State) (e key : Nat) : (endByDrain s e key).boot = s.boot := by
  unfold endByDrain
  split
  · rfl
  · exact boot_ite rfl ((applyPins_boot _ _).trans
      ((boot_foldl (fun _ _ => putMover_boot _ _) _ _).trans (finishStatus_boot _ _ _ _ _)))

theorem bookMover_boot {s t : State} {m : Mover} {tier : Nat} {unit_ work : Option Nat} (h : bookMover s m tier unit_ work = some t) :
    t.boot = s.boot := by
  unfold bookMover at h
  split at h
  · cases h
  · simp only at h
    split at h
    · cases h
    · split at h
      · cases h
      · cases h
        exact putMover_boot _ _

theorem bookMove_boot {s t : State} {key tier : Nat} {unit_ work : Option Nat} (h : bookMove s key tier unit_ work = some t) :
    t.boot = s.boot := by
  unfold bookMove at h
  split at h
  · exact bookMover_boot h
  · cases h

@[simp] theorem pushTile_boot (s : State) (v : Stream) (k : Nat × Bool) : (pushTile s v k).boot = s.boot := by
  unfold pushTile
  split
  · rfl
  · rfl
  · refine boot_ite (endByDrain_boot _ _ _) (boot_ite rfl (boot_ite rfl (boot_ite rfl ?_)))
    cases hb : bookMove s k.1 (if k.2 then 0 else backTier s v.room) none (some v.e) with
    | none => rfl
    | some t => exact bookMove_boot hb

@[simp] theorem pushStream_boot (s : State) (v : Stream) : (pushStream s v).boot = s.boot :=
  boot_foldl (fun _ _ => pushTile_boot _ _ _) _ _

@[simp] theorem fillWindow_boot (k : Nat) (s : State) (e : Nat) : (fillWindow k s e).boot = s.boot := by
  induction k generalizing s with
  | zero => rfl
  | succ k ih =>
    unfold fillWindow
    split
    · rfl
    · refine boot_ite rfl ?_
      split
      · rfl
      · rw [ih]
        split
        · exact pushStream_boot _ _
        · rfl

@[simp] theorem runStream_boot (release : Bool) (s : State) (v : Stream) : (runStream release s v).boot = s.boot := by
  unfold runStream
  extract_lets released pushed filled
  have hreleased : released.boot = s.boot := boot_ite (boot_foldl (fun _ _ => releaseLayer_boot _ _ _) _ _) rfl
  have hpushed : pushed.boot = released.boot := by
    unfold pushed
    split
    · exact pushStream_boot _ _
    · rfl
  have hfilled : filled.boot = s.boot := (fillWindow_boot _ _ _).trans (hpushed.trans hreleased)
  split
  · exact hfilled
  · exact boot_ite hfilled hfilled

/-- What lets go on whatever waited leaves the power and boot state, and with it the record of retired units, as it is. -/
@[simp] theorem settleAll_boot (s : State) : (settleAll s).boot = s.boot := by
  simp [settleAll, boot_foldl fun _ _ => runStream_boot _ _ _]

end Sys2Proof.Machine
end

section
/-!
PROOFS. The flash record that a retirement writes (R416) is the list of the units retired now; after a cold start, which empties that
list and tests every unit again, it is not what the record held before with one unit more.
-/

namespace Sys2Proof.Machine

/-! ### The flash record of retired units -/

/-- Every health state but Failed leaves the power and boot state as it is. -/
theorem enterHealth_boot (s : State) {h : Health} (hh : h ≠ .failed) : (enterHealth s h).boot = s.boot := by
  unfold enterHealth
  refine boot_ite rfl ?_
  simp only [if_neg hh, say_boot, addFault_boot]

@[simp] theorem degrade_boot (s : State) : (degrade s).boot = s.boot := boot_ite (enterHealth_boot s (by decide)) rfl

/-- A join module's retirement has no effect on work: the record is the list with this unit at its end. -/
theorem retireUnit_retireRec {s : State} {i : Nat} (hnew : isRetired s 0x0B i = false) (hi : i < 196) (cause : Nat) :
    (retireUnit s 0x0B i cause).boot.retireRec = s.hlth.retired ++ [(0x0B, i)] := by
  have hbound : ¬ unitCount 0x0B ≤ i := Nat.not_le.mpr hi
  simp [retireUnit, hnew, hbound, retireOne, retireEffect]

theorem exec_unitRetire {s : State} (hrun : isRunning s = true) {code : Nat} (hcode : unitCount code ≠ 0) (i cause : Nat) :
    exec (.unitRetire code i cause) s = .next (settleAll (retireUnit s code i cause)) := by
  have hpower : s.boot.power = .running := by simpa [isRunning] using hrun
  have harm : exec (.unitRetire code i cause) s = execUnitRetire code i cause s := rfl
  simp [harm, execUnitRetire, hpower, hcode]

/-- Whatever state a retirement settles from, its flash record is the list with the unit at its end. -/
theorem retireRec_of_unitRetire {s v : State} {i cause : Nat} (hrun : isRunning s = true) (hnew : isRetired s 0x0B i = false)
    (hi : i < 196) (hv : exec (.unitRetire 0x0B i cause) s = .next (settleAll v)) :
    v.boot.retireRec = s.hlth.retired ++ [(0x0B, i)] := by
  rw [exec_unitRetire hrun (by decide)] at hv
  have hsettled : settleAll (retireUnit s 0x0B i cause) = settleAll v := Host.Outcome.next.inj hv
  have hboot : (retireUnit s 0x0B i cause).boot = v.boot := by simpa using congrArg State.boot hsettled
  rw [← hboot, retireUnit_retireRec hnew hi]

/-- A cold start empties the list of retired units and keeps the flash record: from then on the two differ. -/
theorem clearCold_retired (s : State) : (clearCold s).hlth.retired = [] ∧ (clearCold s).boot.retireRec = s.boot.retireRec :=
  ⟨rfl, rfl⟩

/-! ### The obligation -/

/-- A running switch whose flash still records join module 5 (code 0x0B) from before its cold start, whose tests found no unit to retire. -/
def restarted : State := { State.reset with boot := { State.reset.boot with power := .running, retireRec := [(0x0B, 5)] } }

/-- Refutes O43, by its clause that a retirement adds the unit to the flash record of before: where the record and the list of retired
units differ, as after a cold start, the list is what is written, and settling does not touch the record. On `restarted`, retiring
join module 0 leaves that one alone in the record, not modules 5 and 0. -/
theorem not_healthCommandsTakeEffect : ¬ Obligations.HealthCommandsTakeEffect := by
  intro h
  have hrun : isRunning restarted = true := by decide
  have hnew : isRetired restarted 0x0B 0 = false := by decide
  obtain ⟨hretire, -⟩ := h restarted _ 0
    { n := 0, desc := 0, ring := 0, tA := 0, promise := 0 } { bytes := [], status := [] } restarted rfl
  obtain ⟨-, -, hlisted⟩ := hretire 0x0B 0 0 hrun (by decide)
  obtain ⟨v, hv, -, hrecord, -⟩ := hlisted hnew (by decide) (by decide)
  have hwritten : v.boot.retireRec = [(0x0B, 0)] := retireRec_of_unitRetire hrun hnew (by decide) hv
  have hclaimed : v.boot.retireRec = [(0x0B, 5), (0x0B, 0)] := hrecord
  exact absurd (hwritten.symm.trans hclaimed) (by decide)

end Sys2Proof.Machine
end
